-- ==== Sys2Proof/Word.lean ====
section
/-! DEFINITION. The word types of FMCORE (spec/00_scope.md R9, R10, R12, R13). -/

namespace Sys2Proof

/-- A BYTE, and every 8-bit field of a command word (R13, R132). -/
abbrev Byte := BitVec 8

/-- A 32-bit word: command word, operand, result, or an Fp32 value read in two's complement as a
count of 1/65536ths (R10, R12). -/
abbrev Word := BitVec 32

/-- A MIDI data value after clamping, an integer 0..127: a note, a CC number or a CC value (R13, R331). -/
abbrev Data7 := Fin 128

end Sys2Proof
end

