-- ==== Sys2Proof/Config.lean ====
section
/-! DEFINITION. The names of FMCORE's units and parameter registers, the parameter register file, and
the configuration parameters of spec/00_scope.md R7. The configuration is fixed for an instance; the
model carries it in `State` so that every statement speaks about every instance (assumption 4). -/

namespace Sys2Proof

/-- The four operators of a voice, in the order of their unit codes 0..3 (R8, R133 class OP). -/
inductive OpUnit where
  | a | b1 | b2 | c
  deriving DecidableEq, Repr

/-- The two Attack-Decay-Envelopes of a voice, unit codes 0 and 1 (R133 class ADE). -/
inductive AdeUnit where
  | envA | envB
  deriving DecidableEq, Repr

/-- The three envelopes of a voice, unit codes 0..2 (R133 class ENV): the two ADEs and the VCA. -/
inductive EnvUnit where
  | ade (e : AdeUnit)
  | vca
  deriving DecidableEq, Repr

/-- The kinds of parameter register (R284). -/
inductive Kind where
  | byte | bool | u16 | fp32
  deriving DecidableEq, Repr

/-- The registers of an ADE in the parameter space (R230, R281). -/
inductive AdeField where
  | attack | decay | endLevel | index | gated | retrigger
  deriving DecidableEq, Repr

/-- The registers of the VCA in the parameter space (R230, R281). -/
inductive VcaField where
  | attack | decay | sustain | release | retrigger
  deriving DecidableEq, Repr

/-- The 24 implemented parameter registers (R282): 3 patch-level, 4 ratios, 2 times 6 ADE, 5 VCA. -/
inductive Pid where
  | algorithm
  | feedback
  | mix
  | ratio (u : OpUnit)
  | ade (e : AdeUnit) (f : AdeField)
  | vca (f : VcaField)
  deriving DecidableEq, Repr

/-- One value for each of the four operators. -/
structure PerOp (α : Type) where
  a  : α
  b1 : α
  b2 : α
  c  : α
  deriving DecidableEq, Repr

/-- The parameter registers of one ADE, each with the width of its kind (R282). -/
structure AdeParams where
  attack    : BitVec 16
  decay     : BitVec 16
  endLevel  : Word
  index     : Word
  gated     : Bool
  retrigger : Bool
  deriving DecidableEq, Repr

/-- The parameter registers of the VCA (R282). -/
structure VcaParams where
  attack    : BitVec 16
  decay     : BitVec 16
  sustain   : Word
  release   : BitVec 16
  retrigger : Bool
  deriving DecidableEq, Repr

/-- The parameter register file `PARAM` (R40, R282). A register holds a value of its kind by the
type of its field, so it always holds a legal value (R286). -/
structure Params where
  algorithm : Byte
  feedback  : Word
  mix       : Word
  ratio     : PerOp Word
  envA      : AdeParams
  envB      : AdeParams
  vca       : VcaParams
  deriving DecidableEq, Repr

/-- The configuration parameters (R7). A ROM given as `none` has the nominal contents of R203 or R341;
`some t` replaces them by the table `t`. An entry of `ccMapReset` is `some id` for `(valid 1, id)` and
`none` for `(valid 0, id 0)`. -/
structure Config where
  sr            : Nat
  nv            : Nat
  fifoDepth     : Nat
  notifyDepth   : Nat
  adeShift      : Nat
  sineRom       : Option (List Word)
  noteRom       : Option (List Word)
  patchReset    : Params
  ccMapReset    : List (Option Pid)
  vel0IsNoteOff : Bool
  deriving DecidableEq, Repr

/-- The legal values of the configuration parameters (R7; for `ccMapReset` also R289: a register is
bound to at most one CC number, assumption 10). -/
structure Config.Legal (c : Config) : Prop where
  sr_range      : 4 ≤ c.sr ∧ c.sr ≤ 16777216
  nv_range      : 1 ≤ c.nv ∧ c.nv ≤ 255
  fifo_range    : 1 ≤ c.fifoDepth ∧ c.fifoDepth ≤ 2 ^ 20
  notify_range  : 1 ≤ c.notifyDepth ∧ c.notifyDepth ≤ 256
  shift_range   : c.adeShift ≤ 16
  sine_size     : ∀ t, c.sineRom = some t → t.length = c.sr
  note_size     : ∀ t, c.noteRom = some t → t.length = 128
  cc_size       : c.ccMapReset.length = 128
  cc_distinct   : c.ccMapReset.Pairwise (fun x y => x = none ∨ x ≠ y)

end Sys2Proof
end

