-- ==== Sys2Proof/Syntax.lean ====
section
/-! DEFINITION. Transactions: what arrives on the four ports (spec/30_encoding.md R130 to R143) and the
instructions they stand for, one constructor per row of spec/opcode_table.json. -/

namespace Sys2Proof

/-- The opcodes of the CMD port (R137). -/
inductive Opcode where
  | nop | fmul | fadd | fsub | fshr | fto16 | fxmix
  | oprot | oprd | opwr
  | etrig | eretrig | erel | escale | eidx | erdcur | erdst | erdcnt | erdref
  | vout | vpitch | vcur | vslen | vstk | vmap
  | mixpush | mlvlwr | mlvlrd | mvoutrd | fifolvl
  | prd | pwr | pkind | ccwr | ccrd | npop | papply | paprd
  | strd | stclr | cntrd | cntclr | idrd | cfgrd
  deriving DecidableEq, Repr

/-- The classes of the U field (R133). -/
inductive UClass where
  | none | op | env | ade | adsr | kind | cnt | cfg
  deriving DecidableEq, Repr

/-- The four ports (R130). -/
inductive Port where
  | cmd | midiIn | audioOut | reset
  deriving DecidableEq, Repr

/-- One transaction as its port carries it, undecoded (R131, R140, R142, R143). -/
inductive Request where
  | cmd (cmd opa opb : Word)
  | midi (b0 b1 b2 : Byte)
  | audioOut
  | reset
  deriving DecidableEq, Repr

/-- One decoded transaction. A CMD constructor holds the V field `v` and the U field `u` as raw bytes
where its opcode uses them, and exactly the operand words its opcode uses (R137): a V or U outside its
range is a legal form of the instruction, whose effect is the status RANGE (R133, R134, assumption 8). -/
inductive Instr where
  | nop
  | fmul (a b : Word)
  | fadd (a b : Word)
  | fsub (a b : Word)
  | fshr (a k : Word)
  | fto16 (a : Word)
  | fxmix (x y : Word)
  | oprot (v u : Byte) (freq pm : Word)
  | oprd (v u : Byte)
  | opwr (v u : Byte) (phase : Word)
  | etrig (v u : Byte)
  | eretrig (v u : Byte)
  | erel (v u : Byte)
  | escale (v u : Byte) (sig : Word)
  | eidx (v u : Byte)
  | erdcur (v u : Byte)
  | erdst (v u : Byte)
  | erdcnt (v u : Byte)
  | erdref (v u : Byte)
  | vout (v : Byte) (sig : Word)
  | vpitch (v : Byte)
  | vcur (v : Byte)
  | vslen (v : Byte)
  | vstk (v : Byte) (idx : Word)
  | vmap (note : Word)
  | mixpush
  | mlvlwr (v : Byte) (level : Word)
  | mlvlrd (v : Byte)
  | mvoutrd (v : Byte)
  | fifolvl
  | prd (u : Byte) (id : Word)
  | pwr (id val : Word)
  | pkind (id : Word)
  | ccwr (cc binding : Word)
  | ccrd (cc : Word)
  | npop
  | papply (owner : Word)
  | paprd
  | strd
  | stclr (mask : Word)
  | cntrd (u : Byte)
  | cntclr (u : Byte)
  | idrd
  | cfgrd (u : Byte)
  /-- MIDI_IN with status nibble 0x9 and channel `ch` (R141). -/
  | midiNoteOn (ch : BitVec 4) (b1 b2 : Byte)
  /-- MIDI_IN with status nibble 0x8. -/
  | midiNoteOff (ch : BitVec 4) (b1 b2 : Byte)
  /-- MIDI_IN with status nibble 0xB. -/
  | midiCc (ch : BitVec 4) (b1 b2 : Byte)
  /-- MIDI_IN with any other status nibble. -/
  | midiOther (b0 b1 b2 : Byte)
  /-- One AUDIO_OUT transaction. -/
  | pop
  /-- One RESET transaction. -/
  | reset
  deriving DecidableEq, Repr

/-- The port an instruction travels on (R130). -/
def Instr.port : Instr → Port
  | .midiNoteOn _ _ _ | .midiNoteOff _ _ _ | .midiCc _ _ _ | .midiOther _ _ _ => .midiIn
  | .pop => .audioOut
  | .reset => .reset
  | .nop | .fmul _ _ | .fadd _ _ | .fsub _ _ | .fshr _ _ | .fto16 _ | .fxmix _ _
  | .oprot _ _ _ _ | .oprd _ _ | .opwr _ _ _
  | .etrig _ _ | .eretrig _ _ | .erel _ _ | .escale _ _ _ | .eidx _ _
  | .erdcur _ _ | .erdst _ _ | .erdcnt _ _ | .erdref _ _
  | .vout _ _ | .vpitch _ | .vcur _ | .vslen _ | .vstk _ _ | .vmap _
  | .mixpush | .mlvlwr _ _ | .mlvlrd _ | .mvoutrd _ | .fifolvl
  | .prd _ _ | .pwr _ _ | .pkind _ | .ccwr _ _ | .ccrd _ | .npop | .papply _ | .paprd
  | .strd | .stclr _ | .cntrd _ | .cntclr _ | .idrd | .cfgrd _ => .cmd

end Sys2Proof
end

