-- ==== Sys2Proof/WellFormed.lean ====
section
/-! DEFINITION. When an instruction is well formed: its status nibble is one its constructor may carry
(spec/30_encoding.md R141), its U field lies in its class (R133) and its V field names a voice (R134).
An instruction that is only `encodable` still has a meaning: the status RANGE. -/

namespace Sys2Proof

/-- A nibble that R141 gives a message of its own. -/
def midiNibbleNamed (b0 : Byte) : Bool :=
  b0.extractLsb' 4 4 == 0x9#4 || b0.extractLsb' 4 4 == 0x8#4 || b0.extractLsb' 4 4 == 0xB#4

/-- The instruction is one the decoder can give: a `midiOther` does not carry the nibble of a NoteOn,
NoteOff or CC (R141). Every other constructor is encodable whatever it holds. -/
def Instr.encodable : Instr → Bool
  | .midiOther b0 _ _ => !midiNibbleNamed b0
  | .midiNoteOn _ _ _ | .midiNoteOff _ _ _ | .midiCc _ _ _ | .pop | .reset => true
  | .nop | .fmul _ _ | .fadd _ _ | .fsub _ _ | .fshr _ _ | .fto16 _ | .fxmix _ _
  | .oprot _ _ _ _ | .oprd _ _ | .opwr _ _ _
  | .etrig _ _ | .eretrig _ _ | .erel _ _ | .escale _ _ _ | .eidx _ _
  | .erdcur _ _ | .erdst _ _ | .erdcnt _ _ | .erdref _ _
  | .vout _ _ | .vpitch _ | .vcur _ | .vslen _ | .vstk _ _ | .vmap _
  | .mixpush | .mlvlwr _ _ | .mlvlrd _ | .mvoutrd _ | .fifolvl
  | .prd _ _ | .pwr _ _ | .pkind _ | .ccwr _ _ | .ccrd _ | .npop | .papply _ | .paprd
  | .strd | .stclr _ | .cntrd _ | .cntclr _ | .idrd | .cfgrd _ => true

/-- The U values of a class (R133): `lo ≤ U < hi`. -/
def UClass.bounds : UClass → Nat × Nat
  | .none => (0, 1)
  | .op   => (0, 4)
  | .env  => (0, 3)
  | .ade  => (0, 2)
  | .adsr => (2, 3)
  | .kind => (0, 5)
  | .cnt  => (0, 6)
  | .cfg  => (0, 6)

/-- `u` is a legal U value of class `c` (R133). -/
def UClass.admits (c : UClass) (u : Byte) : Bool :=
  decide (c.bounds.1 ≤ u.toNat) && decide (u.toNat < c.bounds.2)

/-- The U field and its class, for the instructions that use U (R137). -/
def Instr.unitField : Instr → Option (UClass × Byte)
  | .oprot _ u _ _ | .oprd _ u | .opwr _ u _ => some (.op, u)
  | .etrig _ u | .eretrig _ u | .erel _ u | .escale _ u _
  | .erdcur _ u | .erdst _ u | .erdcnt _ u => some (.env, u)
  | .eidx _ u => some (.ade, u)
  | .erdref _ u => some (.adsr, u)
  | .prd u _ => some (.kind, u)
  | .cntrd u | .cntclr u => some (.cnt, u)
  | .cfgrd u => some (.cfg, u)
  | .nop | .fmul _ _ | .fadd _ _ | .fsub _ _ | .fshr _ _ | .fto16 _ | .fxmix _ _
  | .vout _ _ | .vpitch _ | .vcur _ | .vslen _ | .vstk _ _ | .vmap _
  | .mixpush | .mlvlwr _ _ | .mlvlrd _ | .mvoutrd _ | .fifolvl
  | .pwr _ _ | .pkind _ | .ccwr _ _ | .ccrd _ | .npop | .papply _ | .paprd
  | .strd | .stclr _ | .idrd
  | .midiNoteOn _ _ _ | .midiNoteOff _ _ _ | .midiCc _ _ _ | .midiOther _ _ _
  | .pop | .reset => none

/-- The V field, for the instructions that use V (R137). -/
def Instr.voiceField : Instr → Option Byte
  | .oprot v _ _ _ | .oprd v _ | .opwr v _ _
  | .etrig v _ | .eretrig v _ | .erel v _ | .escale v _ _ | .eidx v _
  | .erdcur v _ | .erdst v _ | .erdcnt v _ | .erdref v _
  | .vout v _ | .vpitch v | .vcur v | .vslen v | .vstk v _
  | .mlvlwr v _ | .mlvlrd v | .mvoutrd v => some v
  | .nop | .fmul _ _ | .fadd _ _ | .fsub _ _ | .fshr _ _ | .fto16 _ | .fxmix _ _
  | .vmap _ | .mixpush | .fifolvl
  | .prd _ _ | .pwr _ _ | .pkind _ | .ccwr _ _ | .ccrd _ | .npop | .papply _ | .paprd
  | .strd | .stclr _ | .cntrd _ | .cntclr _ | .idrd | .cfgrd _
  | .midiNoteOn _ _ _ | .midiNoteOff _ _ _ | .midiCc _ _ _ | .midiOther _ _ _
  | .pop | .reset => none

/-- U lies in its class (R133). -/
def Instr.unitOk (i : Instr) : Bool :=
  match i.unitField with
  | some (c, u) => c.admits u
  | none => true

/-- V names one of the `nv` voices (R134). -/
def Instr.voiceOk (nv : Nat) (i : Instr) : Bool :=
  match i.voiceField with
  | some v => decide (v.toNat < nv)
  | none => true

/-- A well-formed instruction of an instance with `nv` voices: it passes every check of R135. -/
def Instr.wf (nv : Nat) (i : Instr) : Bool :=
  i.encodable && i.unitOk && i.voiceOk nv

end Sys2Proof
end

