-- ==== Sys2Proof/Decode.lean ====
section
/-! DEFINITION. Decoding (spec/30_encoding.md R131 to R143), total on every request and on any bytes,
rejecting by name; then the encoder, written from the same tables; then the numbering of
spec/opcode_table.json. -/

namespace Sys2Proof

/-! ## The opcode table (R137) -/

/-- Every opcode, in the order of R137. -/
def Opcode.all : List Opcode :=
  [.nop, .fmul, .fadd, .fsub, .fshr, .fto16, .fxmix, .oprot, .oprd, .opwr, .etrig, .eretrig,
   .erel, .escale, .eidx, .erdcur, .erdst, .erdcnt, .erdref, .vout, .vpitch, .vcur, .vslen,
   .vstk, .vmap, .mixpush, .mlvlwr, .mlvlrd, .mvoutrd, .fifolvl, .prd, .pwr, .pkind, .ccwr,
   .ccrd, .npop, .papply, .paprd, .strd, .stclr, .cntrd, .cntclr, .idrd, .cfgrd]

/-- The opcode byte, bits 31:24 of the command word (R132, R137). -/
def Opcode.byte : Opcode → Byte
  | .nop => 0x00#8
  | .fmul => 0x01#8
  | .fadd => 0x02#8
  | .fsub => 0x03#8
  | .fshr => 0x04#8
  | .fto16 => 0x05#8
  | .fxmix => 0x06#8
  | .oprot => 0x10#8
  | .oprd => 0x11#8
  | .opwr => 0x12#8
  | .etrig => 0x20#8
  | .eretrig => 0x21#8
  | .erel => 0x22#8
  | .escale => 0x23#8
  | .eidx => 0x24#8
  | .erdcur => 0x25#8
  | .erdst => 0x26#8
  | .erdcnt => 0x27#8
  | .erdref => 0x28#8
  | .vout => 0x30#8
  | .vpitch => 0x31#8
  | .vcur => 0x32#8
  | .vslen => 0x33#8
  | .vstk => 0x34#8
  | .vmap => 0x35#8
  | .mixpush => 0x40#8
  | .mlvlwr => 0x41#8
  | .mlvlrd => 0x42#8
  | .mvoutrd => 0x43#8
  | .fifolvl => 0x44#8
  | .prd => 0x50#8
  | .pwr => 0x51#8
  | .pkind => 0x52#8
  | .ccwr => 0x53#8
  | .ccrd => 0x54#8
  | .npop => 0x55#8
  | .papply => 0x56#8
  | .paprd => 0x57#8
  | .strd => 0x60#8
  | .stclr => 0x61#8
  | .cntrd => 0x62#8
  | .cntclr => 0x63#8
  | .idrd => 0x64#8
  | .cfgrd => 0x65#8

/-- The opcode of a byte, or none for a byte outside the map (R138). -/
def Opcode.ofByte (b : Byte) : Option Opcode :=
  Opcode.all.find? (fun o => o.byte == b)

/-- Column V of R137 is "voice" (true) or "none" (false). -/
def Opcode.usesVoice : Opcode → Bool
  | .oprot | .oprd | .opwr | .etrig | .eretrig | .erel | .escale | .eidx | .erdcur | .erdst
  | .erdcnt | .erdref | .vout | .vpitch | .vcur | .vslen | .vstk | .mlvlwr | .mlvlrd
  | .mvoutrd => true
  | .nop | .fmul | .fadd | .fsub | .fshr | .fto16 | .fxmix | .vmap | .mixpush | .fifolvl
  | .prd | .pwr | .pkind | .ccwr | .ccrd | .npop | .papply | .paprd | .strd | .stclr | .cntrd
  | .cntclr | .idrd | .cfgrd => false

/-- Column U of R137. -/
def Opcode.uclass : Opcode → UClass
  | .oprot | .oprd | .opwr => .op
  | .etrig | .eretrig | .erel | .escale | .erdcur | .erdst | .erdcnt => .env
  | .eidx => .ade
  | .erdref => .adsr
  | .prd => .kind
  | .cntrd | .cntclr => .cnt
  | .cfgrd => .cfg
  | .nop | .fmul | .fadd | .fsub | .fshr | .fto16 | .fxmix | .vout | .vpitch | .vcur | .vslen
  | .vstk | .vmap | .mixpush | .mlvlwr | .mlvlrd | .mvoutrd | .fifolvl | .pwr | .pkind
  | .ccwr | .ccrd | .npop | .papply | .paprd | .strd | .stclr | .idrd => .none

/-- The instruction of an opcode with its fields, dropping the fields and the operand words the opcode
does not use (columns V, U, opa and opb of R137). -/
def Opcode.assemble (o : Opcode) (v u : Byte) (opa opb : Word) : Instr :=
  match o with
  | .nop => .nop
  | .fmul => .fmul opa opb
  | .fadd => .fadd opa opb
  | .fsub => .fsub opa opb
  | .fshr => .fshr opa opb
  | .fto16 => .fto16 opa
  | .fxmix => .fxmix opa opb
  | .oprot => .oprot v u opa opb
  | .oprd => .oprd v u
  | .opwr => .opwr v u opa
  | .etrig => .etrig v u
  | .eretrig => .eretrig v u
  | .erel => .erel v u
  | .escale => .escale v u opa
  | .eidx => .eidx v u
  | .erdcur => .erdcur v u
  | .erdst => .erdst v u
  | .erdcnt => .erdcnt v u
  | .erdref => .erdref v u
  | .vout => .vout v opa
  | .vpitch => .vpitch v
  | .vcur => .vcur v
  | .vslen => .vslen v
  | .vstk => .vstk v opa
  | .vmap => .vmap opa
  | .mixpush => .mixpush
  | .mlvlwr => .mlvlwr v opa
  | .mlvlrd => .mlvlrd v
  | .mvoutrd => .mvoutrd v
  | .fifolvl => .fifolvl
  | .prd => .prd u opa
  | .pwr => .pwr opa opb
  | .pkind => .pkind opa
  | .ccwr => .ccwr opa opb
  | .ccrd => .ccrd opa
  | .npop => .npop
  | .papply => .papply opa
  | .paprd => .paprd
  | .strd => .strd
  | .stclr => .stclr opa
  | .cntrd => .cntrd u
  | .cntclr => .cntclr u
  | .idrd => .idrd
  | .cfgrd => .cfgrd u

/-! ## The decoder -/

/-- Why a request stands for no instruction. The first four are the ILLEGAL cases of R135, in its
order; `badLength` is bytes that frame no request (R139). -/
inductive Reject where
  | unknownOpcode | nonzeroZ | unusedV | unusedU | badLength
  deriving DecidableEq, Repr

/-- Bits 31:24 of the command word (R132). -/
def cmdOpc (cmd : Word) : Byte := cmd.extractLsb' 24 8
/-- Bits 23:16 of the command word (R132). -/
def cmdV (cmd : Word) : Byte := cmd.extractLsb' 16 8
/-- Bits 15:8 of the command word (R132). -/
def cmdU (cmd : Word) : Byte := cmd.extractLsb' 8 8
/-- Bits 7:0 of the command word (R132). -/
def cmdZ (cmd : Word) : Byte := cmd.extractLsb' 0 8

/-- The checks of R135 that end in ILLEGAL, in its order. Its two RANGE checks need the number of
voices and come next, in the meaning of the instruction (assumption 8). -/
def decodeCmd (cmd opa opb : Word) : Except Reject Instr :=
  match Opcode.ofByte (cmdOpc cmd) with
  | none => .error .unknownOpcode
  | some o =>
    if cmdZ cmd ≠ 0 then .error .nonzeroZ
    else if o.usesVoice = false ∧ cmdV cmd ≠ 0 then .error .unusedV
    else if o.uclass = .none ∧ cmdU cmd ≠ 0 then .error .unusedU
    else .ok (o.assemble (cmdV cmd) (cmdU cmd) opa opb)

/-- The message of a MIDI_IN request, by its status nibble (R140, R141). -/
def decodeMidi (b0 b1 b2 : Byte) : Instr :=
  if b0.extractLsb' 4 4 = 0x9#4 then .midiNoteOn (b0.extractLsb' 0 4) b1 b2
  else if b0.extractLsb' 4 4 = 0x8#4 then .midiNoteOff (b0.extractLsb' 0 4) b1 b2
  else if b0.extractLsb' 4 4 = 0xB#4 then .midiCc (b0.extractLsb' 0 4) b1 b2
  else .midiOther b0 b1 b2

/-- The instruction a request stands for. -/
def decode : Request → Except Reject Instr
  | .cmd cmd opa opb => decodeCmd cmd opa opb
  | .midi b0 b1 b2 => .ok (decodeMidi b0 b1 b2)
  | .audioOut => .ok .pop
  | .reset => .ok .reset

/-- A word from the four bytes that carry it, byte 0 (bits 7:0) first (R101). -/
def wordOfBytes (x0 x1 x2 x3 : Byte) : Word := x3 ++ x2 ++ x1 ++ x0

/-- The request that bytes on a port frame: twelve, three, none or none of them (R139, R101). -/
def Request.ofBytes (p : Port) (bs : List Byte) : Option Request :=
  match p, bs with
  | .cmd, [c0, c1, c2, c3, a0, a1, a2, a3, b0, b1, b2, b3] =>
    some (.cmd (wordOfBytes c0 c1 c2 c3) (wordOfBytes a0 a1 a2 a3) (wordOfBytes b0 b1 b2 b3))
  | .midiIn, [b0, b1, b2] => some (.midi b0 b1 b2)
  | .audioOut, [] => some .audioOut
  | .reset, [] => some .reset
  | .cmd, _ => none
  | .midiIn, _ => none
  | .audioOut, _ => none
  | .reset, _ => none

/-- Decoding of any bytes on any port. -/
def decodeBytes (p : Port) (bs : List Byte) : Except Reject Instr :=
  match Request.ofBytes p bs with
  | some r => decode r
  | none => .error .badLength

/-! ## The encoder -/

/-- The command word of an opcode with its V and U fields, Z = 0 (R132). -/
def cmdWord (o : Opcode) (v u : Byte) : Word := o.byte ++ v ++ u ++ 0#8

/-- The status byte of a nibble and a channel (R140). -/
def midiStatus (nibble ch : BitVec 4) : Byte := nibble ++ ch

/-- The request of an instruction; a field or an operand word the opcode does not use is 0 (R145). -/
def encode : Instr → Request
  | .nop => .cmd (cmdWord .nop 0 0) 0 0
  | .fmul opa opb => .cmd (cmdWord .fmul 0 0) opa opb
  | .fadd opa opb => .cmd (cmdWord .fadd 0 0) opa opb
  | .fsub opa opb => .cmd (cmdWord .fsub 0 0) opa opb
  | .fshr opa opb => .cmd (cmdWord .fshr 0 0) opa opb
  | .fto16 opa => .cmd (cmdWord .fto16 0 0) opa 0
  | .fxmix opa opb => .cmd (cmdWord .fxmix 0 0) opa opb
  | .oprot v u opa opb => .cmd (cmdWord .oprot v u) opa opb
  | .oprd v u => .cmd (cmdWord .oprd v u) 0 0
  | .opwr v u opa => .cmd (cmdWord .opwr v u) opa 0
  | .etrig v u => .cmd (cmdWord .etrig v u) 0 0
  | .eretrig v u => .cmd (cmdWord .eretrig v u) 0 0
  | .erel v u => .cmd (cmdWord .erel v u) 0 0
  | .escale v u opa => .cmd (cmdWord .escale v u) opa 0
  | .eidx v u => .cmd (cmdWord .eidx v u) 0 0
  | .erdcur v u => .cmd (cmdWord .erdcur v u) 0 0
  | .erdst v u => .cmd (cmdWord .erdst v u) 0 0
  | .erdcnt v u => .cmd (cmdWord .erdcnt v u) 0 0
  | .erdref v u => .cmd (cmdWord .erdref v u) 0 0
  | .vout v opa => .cmd (cmdWord .vout v 0) opa 0
  | .vpitch v => .cmd (cmdWord .vpitch v 0) 0 0
  | .vcur v => .cmd (cmdWord .vcur v 0) 0 0
  | .vslen v => .cmd (cmdWord .vslen v 0) 0 0
  | .vstk v opa => .cmd (cmdWord .vstk v 0) opa 0
  | .vmap opa => .cmd (cmdWord .vmap 0 0) opa 0
  | .mixpush => .cmd (cmdWord .mixpush 0 0) 0 0
  | .mlvlwr v opa => .cmd (cmdWord .mlvlwr v 0) opa 0
  | .mlvlrd v => .cmd (cmdWord .mlvlrd v 0) 0 0
  | .mvoutrd v => .cmd (cmdWord .mvoutrd v 0) 0 0
  | .fifolvl => .cmd (cmdWord .fifolvl 0 0) 0 0
  | .prd u opa => .cmd (cmdWord .prd 0 u) opa 0
  | .pwr opa opb => .cmd (cmdWord .pwr 0 0) opa opb
  | .pkind opa => .cmd (cmdWord .pkind 0 0) opa 0
  | .ccwr opa opb => .cmd (cmdWord .ccwr 0 0) opa opb
  | .ccrd opa => .cmd (cmdWord .ccrd 0 0) opa 0
  | .npop => .cmd (cmdWord .npop 0 0) 0 0
  | .papply opa => .cmd (cmdWord .papply 0 0) opa 0
  | .paprd => .cmd (cmdWord .paprd 0 0) 0 0
  | .strd => .cmd (cmdWord .strd 0 0) 0 0
  | .stclr opa => .cmd (cmdWord .stclr 0 0) opa 0
  | .cntrd u => .cmd (cmdWord .cntrd 0 u) 0 0
  | .cntclr u => .cmd (cmdWord .cntclr 0 u) 0 0
  | .idrd => .cmd (cmdWord .idrd 0 0) 0 0
  | .cfgrd u => .cmd (cmdWord .cfgrd 0 u) 0 0
  | .midiNoteOn ch b1 b2 => .midi (midiStatus 0x9 ch) b1 b2
  | .midiNoteOff ch b1 b2 => .midi (midiStatus 0x8 ch) b1 b2
  | .midiCc ch b1 b2 => .midi (midiStatus 0xB ch) b1 b2
  | .midiOther b0 b1 b2 => .midi b0 b1 b2
  | .pop => .audioOut
  | .reset => .reset

/-- The four bytes of a word, byte 0 (bits 7:0) first (R101). -/
def bytesOfWord (w : Word) : List Byte :=
  [w.extractLsb' 0 8, w.extractLsb' 8 8, w.extractLsb' 16 8, w.extractLsb' 24 8]

/-- The bytes of a request on its port (R139, R101). -/
def Request.toBytes : Request → List Byte
  | .cmd w opa opb => bytesOfWord w ++ bytesOfWord opa ++ bytesOfWord opb
  | .midi b0 b1 b2 => [b0, b1, b2]
  | .audioOut => []
  | .reset => []

/-- The port of a request (R130). -/
def Request.port : Request → Port
  | .cmd _ _ _ => .cmd
  | .midi _ _ _ => .midiIn
  | .audioOut => .audioOut
  | .reset => .reset

/-- The opcode byte an error of this request records in LASTERR (R432); only CMD requests have one. -/
def Request.opcByte : Request → Byte
  | .cmd w _ _ => cmdOpc w
  | .midi _ _ _ => 0
  | .audioOut => 0
  | .reset => 0

/-! ## The numbering of spec/opcode_table.json -/

/-- The request of a table word. The table gives no port, so it is read from the width (assumption 7):
no bits is AUDIO_OUT (the rows POP and RESET have none), up to 24 bits is MIDI_IN with `b0` in bits
23:16, more is CMD with the command word in bits 31:0 and the operand words above it. A 32-bit word
that is no CMD command and whose bits 31:24 are 0 is a MIDI_IN row that was given 32 bits. -/
def tableRequest (nbits w : Nat) : Request :=
  let midi := Request.midi (BitVec.ofNat 8 (w >>> 16)) (BitVec.ofNat 8 (w >>> 8)) (BitVec.ofNat 8 w)
  let cmd := Request.cmd (BitVec.ofNat 32 w) (BitVec.ofNat 32 (w >>> 32)) (BitVec.ofNat 32 (w >>> 64))
  if nbits = 0 then .audioOut
  else if nbits ≤ 24 then midi
  else if nbits ≤ 32 ∧ w < 2 ^ 24 then
    match decode cmd with
    | .ok _ => cmd
    | .error _ => midi
  else cmd

/-- The instruction the decoder reads from a table word. -/
def decodeTableWord (nbits w : Nat) : Option Instr :=
  match decode (tableRequest nbits w) with
  | .ok i => some i
  | .error _ => none

end Sys2Proof
end

