-- ==== Sys2Proof/Machine/Defaults.lean ====
section
/-! DEFINITION. The default values of the configuration parameters (spec/00_scope.md R7,
spec/43_patch.md R282). -/

namespace Sys2Proof

/-- The default PATCH_RESET of an ADE's registers (R282). -/
def AdeParams.default : AdeParams where
  attack    := 1
  decay     := 64
  endLevel  := 0x00004000
  index     := 0x00010000
  gated     := false
  retrigger := false

/-- The default PATCH_RESET of the VCA's registers (R282). -/
def VcaParams.default : VcaParams where
  attack    := 441
  decay     := 4410
  sustain   := 0x0000C000
  release   := 4410
  retrigger := false

/-- The default PATCH_RESET: the last column of R282. -/
def Params.default : Params where
  algorithm := 0
  feedback  := 0x00000000
  mix       := 0x00008000
  ratio     := ⟨0x00010000, 0x00010000, 0x00010000, 0x00010000⟩
  envA      := AdeParams.default
  envB      := AdeParams.default
  vca       := VcaParams.default

/-- The default configuration (R7). -/
def Config.default : Config where
  sr            := 44100
  nv            := 4
  fifoDepth     := 1024
  notifyDepth   := 16
  adeShift      := 11
  sineRom       := none
  noteRom       := none
  patchReset    := Params.default
  ccMapReset    := List.replicate 128 none
  vel0IsNoteOff := false

end Sys2Proof
end

