-- ==== Sys2Proof/Machine/State.lean ====
section
/-! DEFINITION. The state of FMCORE (spec/10_state.md), the reasons a step can stop, and the state after
reset (spec/70_reset_and_hazards.md R470, R471). -/

namespace Sys2Proof.Machine

/-- The states of an ADE (R34, R35): it never enters RELEASE (R230), so RELEASE is no state of it. -/
inductive AdeState where
  | complete | attack | decay | sustain
  deriving DecidableEq, Repr

/-- The states of the ADSR (R34, R35). -/
inductive AdsrState where
  | complete | attack | decay | sustain | release
  deriving DecidableEq, Repr

/-- The registers of an ADE (R34). `cur` is an Fp32, `n` a 32-bit unsigned saturating counter. -/
structure Ade where
  state : AdeState
  cur   : Word
  n     : Word
  deriving DecidableEq, Repr

/-- The registers of the VCA (R34): those of an ADE and the captured level `ref`. -/
structure Adsr where
  state : AdsrState
  cur   : Word
  n     : Word
  ref   : Word
  deriving DecidableEq, Repr

/-- The state of one voice and its mixer channel (R32, R34, R36, R37). A phase is a table index in
[0, SR - 1]; the note stack is oldest first, its last element on top. -/
structure Voice where
  phase    : PerOp Nat
  envA     : Ade
  envB     : Ade
  vca      : Adsr
  pitch    : Word
  stack    : List Data7
  vout     : Word
  rendered : Bool
  level    : Word
  deriving DecidableEq, Repr

/-- The feedback-owner latch (R41). -/
structure FbOwner where
  en : Bool
  op : OpUnit
  deriving DecidableEq, Repr

/-- The sticky STATUS bits (R44), the event counters (R45) and the capture registers (R46). The live
STATUS bits 4 to 6 are computed from the queues when STATUS is read. -/
structure Log where
  underrun      : Bool
  cmdErr        : Bool
  notifyOvf     : Bool
  midiDiag      : Bool
  cntUnderrun   : Word
  cntMidiDiag   : Word
  cntCmdErr     : Word
  cntNotifyDrop : Word
  lastErr       : Word
  lastDiag      : Word
  deriving DecidableEq, Repr

/-- The status of a CMD response (R136). -/
inductive Status where
  | ok | illegal | range | badId | kind | busy | hazard
  deriving DecidableEq, Repr

/-- What the last transaction answered on its port (R130): nothing (MIDI_IN, RESET, or no transaction
yet), a CMD response, or an AUDIO_OUT response. -/
inductive Response where
  | none
  | cmd (status : Status) (res : Word)
  | audio (sample : BitVec 16) (underrun : Bool)
  deriving DecidableEq, Repr

/-- The state of FMCORE. `cfg` is the instance's configuration, which nothing changes (R472, assumption
4). `pending` is the environment's transactions not yet applied, in the total order the environment
chose (R110, assumption 1), and `response` what the last one answered (assumption 3). An entry of
`noteMap` or `ccMap` is `some x` for `(valid 1, x)` and `none` for `(valid 0, 0)` (R38, R39,
assumption 10). -/
structure State where
  cfg       : Config
  pending   : List Request
  response  : Response
  voices    : List Voice
  noteMap   : List (Option Byte)
  ccMap     : List (Option Pid)
  params    : Params
  fbOwner   : FbOwner
  algActive : Byte
  fifo      : List Word
  nq        : List Pid
  log       : Log
  deriving DecidableEq, Repr

/-- No step of FMCORE ends in a fault: "No transaction causes a trap, an exception entry, a change of
control flow or a halt" (R430). The type has no constructor, so nobody can raise one. -/
inductive Fault where
  deriving DecidableEq, Repr

/-- Why an instruction has no meaning. -/
inductive Refusal where
  /-- Raised by an arm of `exec` whose instruction has no meaning yet; safe. No arm raises it. -/
  | notModelled (mnemonic : String)
  deriving DecidableEq, Repr

/-- The reset value of every register of a voice (R471). -/
def Voice.initial : Voice where
  phase    := ⟨0, 0, 0, 0⟩
  envA     := ⟨.complete, 0, 0⟩
  envB     := ⟨.complete, 0, 0⟩
  vca      := ⟨.complete, 0, 0, 0⟩
  pitch    := 0
  stack    := []
  vout     := 0
  rendered := false
  level    := 0x00010000

/-- The reset value of the STATUS bits, counters and capture registers (R471). -/
def Log.initial : Log where
  underrun      := false
  cmdErr        := false
  notifyOvf     := false
  midiDiag      := false
  cntUnderrun   := 0
  cntMidiDiag   := 0
  cntCmdErr     := 0
  cntNotifyDrop := 0
  lastErr       := 0
  lastDiag      := 0

/-- The state of an instance `cfg` at power-on, which is its state after a RESET (R470, R471). -/
def State.powerOn (cfg : Config) : State where
  cfg       := cfg
  pending   := []
  response  := .none
  voices    := List.replicate cfg.nv Voice.initial
  noteMap   := List.replicate 128 none
  ccMap     := cfg.ccMapReset
  params    := cfg.patchReset
  fbOwner   := ⟨false, .a⟩
  algActive := 0
  fifo      := []
  nq        := []
  log       := Log.initial

/-- The machine right after reset, with every configuration parameter at its default (R7, R471). -/
def State.reset : State := State.powerOn Config.default

end Sys2Proof.Machine
end

