-- ==== Sys2Proof/Machine/Fp32.lean ====
section
/-! DEFINITION. Integer operators (spec/00_scope.md R10, R11) and the fixed-point functions
(spec/40_fixed_point.md R170 to R175). -/

namespace Sys2Proof.Machine

/-- Full scale, the Fp32 1.0 as an integer (R7). -/
def fs : Int := 65536

/-- The 32-bit word congruent to `x` modulo 2^32 (R10). -/
def wrap32 (x : Int) : Word := BitVec.ofInt 32 x

/-- Arithmetic right shift, rounding toward minus infinity (R11). -/
def asr (x : Int) (k : Nat) : Int := x >>> k

/-- `lo` below `lo`, `hi` above `hi`, else `x` (R11). -/
def clamp (x lo hi : Int) : Int := if x < lo then lo else if hi < x then hi else x

/-- Multiply: the exact product shifted right by 16, then wrapped (R170). -/
def fmul (a b : Word) : Word := wrap32 (asr (a.toInt * b.toInt) 16)

/-- Add, wrapping (R171). -/
def fadd (a b : Word) : Word := wrap32 (a.toInt + b.toInt)

/-- Subtract, wrapping (R172). -/
def fsub (a b : Word) : Word := wrap32 (a.toInt - b.toInt)

/-- Scale by a power of two (R173). -/
def fshr (a : Word) (k : Nat) : Word := wrap32 (asr a.toInt k)

/-- Conversion to 16-bit PCM: clip, then shift right by one (R174). -/
def to16 (a : Word) : BitVec 16 := BitVec.ofInt 16 (asr (clamp a.toInt (-65536) 65535) 1)

/-- Cross-mix, with the mix value clamped to [0, 1.0] (R175). -/
def xmix (x y mix : Word) : Word :=
  let m := clamp mix.toInt 0 fs
  fshr (fadd (fmul x (wrap32 (fs - m))) (fmul y (wrap32 m))) 1

end Sys2Proof.Machine
end

