-- ==== Sys2Proof/Machine/Rom.lean ====
section
/-! DEFINITION. The two ROMs (spec/10_state.md R47): the sine ROM (spec/41_operator.md R202, R203) and
the note ROM (spec/44_voice_alloc.md R341). The nominal sine is computed by exact integer arithmetic
(assumption 5); the nominal notes are the table of R341. -/

namespace Sys2Proof.Machine

/-- The scale of the fixed-point angles and sines below. -/
def sineScale : Nat := 2 ^ 80

/-- π/2 times `sineScale`, rounded down. -/
def halfPi : Nat := 1898976236818169290393997

/-- The Taylor series of the sine from its term `t` of odd degree `k` on, `fuel` terms of it, with
`x2` the square of the angle; terms are added and subtracted in turn. -/
def sineSeries (x2 : Nat) : Nat → Nat → Int → Int
  | 0, _, _ => 0
  | fuel + 1, k, t =>
    t + sineSeries x2 fuel (k + 2) (-(t * x2 / (sineScale * ((k + 1) * (k + 2)) : Nat)))

/-- `round (sin ((π/2) * r / sr) * 65536)` for `0 ≤ r ≤ sr`. -/
def sineQuarter (sr r : Nat) : Int :=
  let x := halfPi * r / sr
  let y := sineSeries (x * x / sineScale) 14 1 x
  (y * 131072 + sineScale) / (2 * sineScale : Nat)

/-- The nominal entry `i` of a sine ROM of `sr` entries: `round (sin (2 π i / sr) * 65536)` (R203). The
quarter turn `4 i / sr` picks the sign and the direction in which the quarter wave is read. -/
def sineNominal (sr i : Nat) : Word :=
  let r := 4 * i % sr
  match 4 * i / sr with
  | 0 => wrap32 (sineQuarter sr r)
  | 1 => wrap32 (sineQuarter sr (sr - r))
  | 2 => wrap32 (-sineQuarter sr r)
  | _ => wrap32 (-sineQuarter sr (sr - r))

/-- The nominal note ROM: `round (440 * 2 ^ ((n - 69) / 12) * 65536)` (R341). -/
def noteNominal : List Word :=
  [0x00082D01, 0x0008A976, 0x00092D51, 0x0009B904, 0x000A4D05, 0x000AE9D3, 0x000B8FF5, 0x000C3FF7] ++
  [0x000CFA70, 0x000DC000, 0x000E914F, 0x000F6F11, 0x00105A02, 0x001152EC, 0x00125AA3, 0x00137208] ++
  [0x00149A0A, 0x0015D3A7, 0x00171FE9, 0x00187FED, 0x0019F4E0, 0x001B8000, 0x001D229F, 0x001EDE22] ++
  [0x0020B405, 0x0022A5D8, 0x0024B546, 0x0026E410, 0x00293415, 0x002BA74E, 0x002E3FD2, 0x0030FFDB] ++
  [0x0033E9C0, 0x00370000, 0x003A453E, 0x003DBC44, 0x00416809, 0x00454BB0, 0x00496A8C, 0x004DC821] ++
  [0x0052682A, 0x00574E9B, 0x005C7FA5, 0x0061FFB5, 0x0067D380, 0x006E0000, 0x00748A7B, 0x007B7888] ++
  [0x0082D013, 0x008A9760, 0x0092D517, 0x009B9041, 0x00A4D054, 0x00AE9D37, 0x00B8FF49, 0x00C3FF6A] ++
  [0x00CFA700, 0x00DC0000, 0x00E914F6, 0x00F6F110, 0x0105A025, 0x01152EC1, 0x0125AA2E, 0x01372082] ++
  [0x0149A0A8, 0x015D3A6D, 0x0171FE92, 0x0187FED5, 0x019F4E01, 0x01B80000, 0x01D229EC, 0x01EDE220] ++
  [0x020B404A, 0x022A5D82, 0x024B545C, 0x026E4104, 0x0293414F, 0x02BA74DB, 0x02E3FD25, 0x030FFDAA] ++
  [0x033E9C01, 0x03700000, 0x03A453D9, 0x03DBC440, 0x04168094, 0x0454BB04, 0x0496A8B9, 0x04DC8208] ++
  [0x0526829E, 0x0574E9B6, 0x05C7FA4A, 0x061FFB54, 0x067D3803, 0x06E00000, 0x0748A7B1, 0x07B78880] ++
  [0x082D0128, 0x08A97607, 0x092D5172, 0x09B90410, 0x0A4D053D, 0x0AE9D36B, 0x0B8FF494, 0x0C3FF6A7] ++
  [0x0CFA7005, 0x0DC00000, 0x0E914F62, 0x0F6F1100, 0x105A0251, 0x1152EC0E, 0x125AA2E4, 0x13720820] ++
  [0x149A0A79, 0x15D3A6D6, 0x171FE928, 0x187FED4E, 0x19F4E00B, 0x1B800000, 0x1D229EC4, 0x1EDE2200] ++
  [0x20B404A2, 0x22A5D81D, 0x24B545C7, 0x26E41040, 0x293414F2, 0x2BA74DAC, 0x2E3FD250, 0x30FFDA9D]

/-- `SINE[i]` (R14, R202): the configured table, else the nominal contents. -/
def sineAt (c : Config) (i : Nat) : Word :=
  match c.sineRom with
  | some t => t.getD i 0
  | none => sineNominal c.sr i

/-- `NOTE[n]` (R14, R341): the configured table, else the nominal contents. -/
def noteAt (c : Config) (n : Data7) : Word :=
  match c.noteRom with
  | some t => t.getD n.val 0
  | none => noteNominal.getD n.val 0

end Sys2Proof.Machine
end

