-- ==== Sys2Proof/Machine/Operands.lean ====
section
/-! DEFINITION. Operand forms: the unit codes of the U field (spec/30_encoding.md R133), ParamId
operands and the parameter registers behind them (spec/43_patch.md R281 to R288), the fields of the
operand words, and MIDI data bytes (spec/44_voice_alloc.md R331). -/

namespace Sys2Proof.Machine

/-! ## Unit codes (R133) -/

/-- The unit code of an operator. -/
def opCode : OpUnit → BitVec 2
  | .a => 0
  | .b1 => 1
  | .b2 => 2
  | .c => 3

/-- The operator of a 2-bit unit code. -/
def opOfCode (x : BitVec 2) : OpUnit :=
  if x = 0 then .a else if x = 1 then .b1 else if x = 2 then .b2 else .c

/-- U in class OP. -/
def opOfU (u : Byte) : Option OpUnit :=
  if u.toNat < 4 then some (opOfCode (u.setWidth 2)) else none

/-- U in class ADE. -/
def adeOfU (u : Byte) : Option AdeUnit :=
  if u = 0 then some .envA else if u = 1 then some .envB else none

/-- U in class ENV. -/
def envOfU (u : Byte) : Option EnvUnit :=
  if u = 0 then some (.ade .envA)
  else if u = 1 then some (.ade .envB)
  else if u = 2 then some .vca
  else none

/-- U in class ADSR. -/
def adsrOfU (u : Byte) : Option Unit := if u = 2 then some () else none

/-- U in a class `0 .. hi - 1` (KIND, CNT and CFG). -/
def selOfU (hi : Nat) (u : Byte) : Option Nat := if u.toNat < hi then some u.toNat else none

/-! ## Values of one operator out of four -/

/-- The value of operator `u`. -/
def perOpGet {α : Type} (p : PerOp α) : OpUnit → α
  | .a => p.a
  | .b1 => p.b1
  | .b2 => p.b2
  | .c => p.c

/-- The values with that of operator `u` replaced by `x`. -/
def perOpSet {α : Type} (p : PerOp α) (u : OpUnit) (x : α) : PerOp α :=
  match u with
  | .a => { p with a := x }
  | .b1 => { p with b1 := x }
  | .b2 => { p with b2 := x }
  | .c => { p with c := x }

/-! ## ParamIds (R281, R282) -/

/-- The subtype of an ADE register (R281). -/
def adeSub : AdeField → BitVec 4
  | .attack => 0
  | .decay => 1
  | .endLevel => 4
  | .index => 5
  | .gated => 6
  | .retrigger => 7

/-- The subtype of a VCA register (R281). -/
def vcaSub : VcaField → BitVec 4
  | .attack => 0
  | .decay => 1
  | .sustain => 2
  | .release => 3
  | .retrigger => 7

/-- The group of an ADE: envA is group A, envB is group B1 (R230). -/
def adeGroup : AdeUnit → BitVec 2
  | .envA => 0
  | .envB => 1

/-- The ParamId of a register: group, type, subtype (R281). -/
def pidId : Pid → Byte
  | .algorithm => 0#2 ++ 0#2 ++ 0#4
  | .feedback => 0#2 ++ 0#2 ++ 1#4
  | .mix => 0#2 ++ 0#2 ++ 2#4
  | .ratio u => opCode u ++ 1#2 ++ 0#4
  | .ade e f => adeGroup e ++ 2#2 ++ adeSub f
  | .vca f => 2#2 ++ 2#2 ++ vcaSub f

/-- Every implemented register, in the order of R282. -/
def pidAll : List Pid :=
  [.algorithm, .feedback, .mix, .ratio .a, .ratio .b1, .ratio .b2, .ratio .c] ++
  [.ade .envA .attack, .ade .envA .decay, .ade .envA .endLevel, .ade .envA .index,
   .ade .envA .gated, .ade .envA .retrigger] ++
  [.ade .envB .attack, .ade .envB .decay, .ade .envB .endLevel, .ade .envB .index,
   .ade .envB .gated, .ade .envB .retrigger] ++
  [.vca .attack, .vca .decay, .vca .sustain, .vca .release, .vca .retrigger]

/-- The register of an 8-bit ParamId, if it is implemented (R282). -/
def pidOfId (x : Byte) : Option Pid := pidAll.find? (fun p => pidId p == x)

/-- The register a 32-bit operand names; a value above 255 names none (R282, R285). -/
def pidOfWord (w : Word) : Option Pid :=
  if w.toNat < 256 then pidOfId (w.setWidth 8) else none

/-- The kind of an ADE register (R282). -/
def adeKind : AdeField → Kind
  | .attack => .u16
  | .decay => .u16
  | .endLevel => .fp32
  | .index => .fp32
  | .gated => .bool
  | .retrigger => .bool

/-- The kind of a VCA register (R282). -/
def vcaKind : VcaField → Kind
  | .attack => .u16
  | .decay => .u16
  | .sustain => .fp32
  | .release => .u16
  | .retrigger => .bool

/-- The kind of a register (R282). -/
def pidKind : Pid → Kind
  | .algorithm => .byte
  | .feedback => .fp32
  | .mix => .fp32
  | .ratio _ => .fp32
  | .ade _ f => adeKind f
  | .vca f => vcaKind f

/-- The code of a kind (R284). -/
def kindCode : Kind → Nat
  | .byte => 1
  | .bool => 2
  | .u16 => 3
  | .fp32 => 4

/-! ## Reads and writes of the register file (R286, R287) -/

/-- One bit as a word. -/
def bitWord (b : Bool) : Word := if b then 1 else 0

/-- Read a register of an ADE, zero-extended. -/
def adeRead (p : AdeParams) : AdeField → Word
  | .attack => p.attack.setWidth 32
  | .decay => p.decay.setWidth 32
  | .endLevel => p.endLevel
  | .index => p.index
  | .gated => bitWord p.gated
  | .retrigger => bitWord p.retrigger

/-- Write a register of an ADE, keeping the bits of its kind. -/
def adeWrite (p : AdeParams) (f : AdeField) (x : Word) : AdeParams :=
  match f with
  | .attack => { p with attack := x.setWidth 16 }
  | .decay => { p with decay := x.setWidth 16 }
  | .endLevel => { p with endLevel := x }
  | .index => { p with index := x }
  | .gated => { p with gated := x.getLsbD 0 }
  | .retrigger => { p with retrigger := x.getLsbD 0 }

/-- Read a register of the VCA, zero-extended. -/
def vcaRead (p : VcaParams) : VcaField → Word
  | .attack => p.attack.setWidth 32
  | .decay => p.decay.setWidth 32
  | .sustain => p.sustain
  | .release => p.release.setWidth 32
  | .retrigger => bitWord p.retrigger

/-- Write a register of the VCA, keeping the bits of its kind. -/
def vcaWrite (p : VcaParams) (f : VcaField) (x : Word) : VcaParams :=
  match f with
  | .attack => { p with attack := x.setWidth 16 }
  | .decay => { p with decay := x.setWidth 16 }
  | .sustain => { p with sustain := x }
  | .release => { p with release := x.setWidth 16 }
  | .retrigger => { p with retrigger := x.getLsbD 0 }

/-- The registers of ADE `e` (R230). -/
def adeParams (p : Params) : AdeUnit → AdeParams
  | .envA => p.envA
  | .envB => p.envB

/-- `PARAM[id]`, zero-extended to 32 bits (R287). -/
def paramRead (p : Params) : Pid → Word
  | .algorithm => p.algorithm.setWidth 32
  | .feedback => p.feedback
  | .mix => p.mix
  | .ratio u => perOpGet p.ratio u
  | .ade e f => adeRead (adeParams p e) f
  | .vca f => vcaRead p.vca f

/-- `PARAM[id] <- mask(kind(id), x)` (R286): the field's type keeps the bits of its kind. -/
def paramWrite (p : Params) (id : Pid) (x : Word) : Params :=
  match id with
  | .algorithm => { p with algorithm := x.setWidth 8 }
  | .feedback => { p with feedback := x }
  | .mix => { p with mix := x }
  | .ratio u => { p with ratio := perOpSet p.ratio u x }
  | .ade .envA f => { p with envA := adeWrite p.envA f x }
  | .ade .envB f => { p with envB := adeWrite p.envB f x }
  | .vca f => { p with vca := vcaWrite p.vca f x }

/-- The 7-bit-to-native conversion of a kind (R288). -/
def ccConv (k : Kind) (val : Data7) : Word :=
  match k with
  | .bool => bitWord (decide (64 ≤ val.val))
  | .u16 => BitVec.ofNat 32 (val.val <<< 9)
  | .fp32 => wrap32 (((val.val : Int) - 64) * 256)
  | .byte => BitVec.ofNat 32 val.val

/-! ## Packed entries and index operands -/

/-- `valid << 8 | x` of a map entry; an invalid entry reads 0 (R294, R297, R364). -/
def entryWord : Option Byte → Word
  | some x => 0x100#32 ||| x.setWidth 32
  | none => 0

/-- The id a CC map entry holds. -/
def ccEntry (e : Option Pid) : Option Byte := e.map pidId

/-- An operand that indexes a 128-entry map; a value above 127 is out of range (R102). -/
def data7OfWord (w : Word) : Option Data7 :=
  if h : w.toNat < 128 then some ⟨w.toNat, h⟩ else none

/-- A MIDI data byte, clamped to 127 (R331). -/
def clampData (b : Byte) : Data7 := ⟨min b.toNat 127, by omega⟩

/-- A MIDI data value as a byte. -/
def dataByte (d : Data7) : Byte := BitVec.ofNat 8 d.val

/-- The mixer's attenuation, `floor (65536 / NV)` (R381). -/
def atten (c : Config) : Word := BitVec.ofNat 32 (65536 / c.nv)

end Sys2Proof.Machine
end

