-- ==== Sys2Proof/Machine/Flags.lean ====
section
/-! DEFINITION. The STATUS register, the event counters and the capture registers (spec/10_state.md R44
to R46, spec/60_exceptions.md R432 to R436, spec/46_system.md R410, R411). -/

namespace Sys2Proof.Machine

/-- Increment, saturating at 2^32 - 1 (R11). -/
def satInc32 (n : Word) : Word := if n = 0xFFFFFFFF then n else n + 1

/-- The code of a status (R136). -/
def statusCode : Status → BitVec 4
  | .ok => 0
  | .illegal => 1
  | .range => 2
  | .badId => 3
  | .kind => 4
  | .busy => 5
  | .hazard => 6

/-- The STATUS register: sticky bits 0 to 3, live bits 4 to 6, the rest 0 (R44, R410). -/
def statusWord (s : State) : Word :=
  bitWord s.log.underrun
    ||| bitWord s.log.cmdErr <<< 1
    ||| bitWord s.log.notifyOvf <<< 2
    ||| bitWord s.log.midiDiag <<< 3
    ||| bitWord (decide (s.fifo.length = 0)) <<< 4
    ||| bitWord (decide (s.fifo.length = s.cfg.fifoDepth)) <<< 5
    ||| bitWord (decide (0 < s.nq.length)) <<< 6

/-- Clear the sticky bits whose mask bit is set (R411). -/
def logClearSticky (l : Log) (mask : Word) : Log :=
  { l with
    underrun := l.underrun && !mask.getLsbD 0
    cmdErr := l.cmdErr && !mask.getLsbD 1
    notifyOvf := l.notifyOvf && !mask.getLsbD 2
    midiDiag := l.midiDiag && !mask.getLsbD 3 }

/-- The log after a CMD error with opcode byte `opc`; BUSY is no error and records nothing (R432). -/
def logError (l : Log) (opc : Byte) (st : Status) : Log :=
  if st = .busy then l
  else
    { l with
      cmdErr := true
      cntCmdErr := satInc32 l.cntCmdErr
      lastErr := 0#16 ++ opc ++ 0#4 ++ statusCode st }

/-- The log after a MIDI diagnostic (R434). -/
def logDiag (l : Log) (cause : Byte) (b0 : Byte) (b1 : Data7) : Log :=
  { l with
    midiDiag := true
    cntMidiDiag := satInc32 l.cntMidiDiag
    lastDiag := 0#8 ++ dataByte b1 ++ b0 ++ cause }

/-- The log after an underrun (R391). -/
def logUnderrun (l : Log) : Log :=
  { l with underrun := true, cntUnderrun := satInc32 l.cntUnderrun }

/-- The log after a dropped notification (R290). -/
def logNotifyDrop (l : Log) : Log :=
  { l with notifyOvf := true, cntNotifyDrop := satInc32 l.cntNotifyDrop }

/-- The counter or capture register of a select of class CNT (R45, R46, R413). -/
def logRead (l : Log) : Nat → Word
  | 0 => l.cntUnderrun
  | 1 => l.cntMidiDiag
  | 2 => l.cntCmdErr
  | 3 => l.cntNotifyDrop
  | 4 => l.lastErr
  | _ => l.lastDiag

/-- Zero the counter or capture register of a select of class CNT (R414). -/
def logZero (l : Log) : Nat → Log
  | 0 => { l with cntUnderrun := 0 }
  | 1 => { l with cntMidiDiag := 0 }
  | 2 => { l with cntCmdErr := 0 }
  | 3 => { l with cntNotifyDrop := 0 }
  | 4 => { l with lastErr := 0 }
  | _ => { l with lastDiag := 0 }

end Sys2Proof.Machine
end

