-- ==== Sys2Proof/Machine/Ops.lean ====
section
/-! DEFINITION. The shared operations of the transactions: fetching the next one, answering it, ending
it with an error (spec/60_exceptions.md R432, the machine's only form of exception; there is no return
from one, R439), the decode checks of spec/30_encoding.md R135 that end in RANGE, and access to the
voices and the queues. -/

namespace Sys2Proof.Machine

/-- What one step answers. -/
abbrev Out := Host.Outcome State Fault Refusal

/-! ## Transactions -/

/-- The next transaction in the environment's order, and the state without it (R110, R111). -/
def fetch (s : State) : Option (Request × State) :=
  match s.pending with
  | [] => none
  | r :: rest => some (r, { s with pending := rest })

/-- The state with `r` as its next transaction. -/
def deliver (s : State) (r : Request) : State := { s with pending := r :: s.pending }

/-- The state with a CMD response (R131). -/
def respond (s : State) (st : Status) (res : Word) : State :=
  { s with response := .cmd st res }

/-- End a CMD transaction with an error: record it, answer the status and the result 0 (R432). This is
the one operation that takes an error, whichever command or check raises it. -/
def raise (s : State) (opc : Byte) (st : Status) : State :=
  { s with response := .cmd st 0, log := logError s.log opc st }

/-- The state when a transaction without a response begins (MIDI_IN and RESET, R130). -/
def silent (s : State) : State := { s with response := .none }

/-- End a CMD transaction with status OK. -/
def ok (s : State) (res : Word) : Out := .next (respond s .ok res)

/-- End a CMD transaction of opcode `o` with an error status. -/
def fail (s : State) (o : Opcode) (st : Status) : Out := .next (raise s o.byte st)

/-- End a request the decoder rejects with ILLEGAL (R135, R138). -/
def rejectRequest (s : State) (r : Request) : State := raise s r.opcByte .illegal

/-- The check `V < NV`, else RANGE (R134, R135). -/
def withVoice (s : State) (o : Opcode) (v : Byte) (k : Nat → Out) : Out :=
  if v.toNat < s.cfg.nv then k v.toNat else fail s o .range

/-- The check that U is in its class, else RANGE (R133, R135). -/
def withUnit {α : Type} (s : State) (o : Opcode) (u : Option α) (k : α → Out) : Out :=
  match u with
  | some x => k x
  | none => fail s o .range

/-- An operand that must name something, else the status `st`. -/
def withOperand {α : Type} (s : State) (o : Opcode) (st : Status) (x : Option α) (k : α → Out) : Out :=
  match x with
  | some y => k y
  | none => fail s o st

/-! ## Voices -/

/-- The registers of voice `v`. A legal state holds exactly NV voices (assumption 9). -/
def voice (s : State) (v : Nat) : Voice := s.voices.getD v Voice.initial

/-- The state with the registers of voice `v` replaced. -/
def setVoice (s : State) (v : Nat) (x : Voice) : State := { s with voices := s.voices.set v x }

/-- The state with the registers of voice `v` updated by `f`. -/
def modifyVoice (s : State) (v : Nat) (f : Voice → Voice) : State := setVoice s v (f (voice s v))

/-- The registers of ADE `e` of a voice. -/
def voiceAde (x : Voice) : AdeUnit → Ade
  | .envA => x.envA
  | .envB => x.envB

/-- The voice with the registers of ADE `e` replaced. -/
def voiceSetAde (x : Voice) (e : AdeUnit) (a : Ade) : Voice :=
  match e with
  | .envA => { x with envA := a }
  | .envB => { x with envB := a }

/-- `CurNote`: the top of the stack, or 0 when it is empty (R342). -/
def curNote (x : Voice) : Nat :=
  match x.stack.getLast? with
  | some n => n.val
  | none => 0

/-! ## Queues and maps -/

/-- Offer a written id to the notification queue; a full queue drops it and flags the loss (R290). -/
def notify (s : State) (id : Pid) : State :=
  if s.nq.length < s.cfg.notifyDepth then { s with nq := s.nq ++ [id] }
  else { s with log := logNotifyDrop s.log }

/-- Write a parameter register through its kind's mask, then notify (R286, R290). -/
def setParam (s : State) (id : Pid) (x : Word) : State :=
  notify { s with params := paramWrite s.params id x } id

/-- Record a MIDI diagnostic and change nothing else (R434). -/
def diagnose (s : State) (cause : Byte) (b0 : Byte) (b1 : Data7) : State :=
  { s with log := logDiag s.log cause b0 b1 }

/-- `NOTEMAP[n]` (R38). -/
def noteOwner (s : State) (n : Data7) : Option Byte := s.noteMap.getD n.val none

/-- The state with `NOTEMAP[n]` replaced. -/
def setNoteOwner (s : State) (n : Data7) (e : Option Byte) : State :=
  { s with noteMap := s.noteMap.set n.val e }

/-- `CCMAP[c]` (R39). -/
def ccBinding (s : State) (c : Data7) : Option Pid := s.ccMap.getD c.val none

/-- The state with `CCMAP[c]` invalid. -/
def unbindCc (s : State) (c : Data7) : State := { s with ccMap := s.ccMap.set c.val none }

/-- The state with `CCMAP[c]` bound to `id` and every other entry bound to `id` unbound (R293). -/
def bindCc (s : State) (c : Data7) (id : Pid) : State :=
  { s with ccMap := (s.ccMap.map (fun e => if e = some id then none else e)).set c.val (some id) }

end Sys2Proof.Machine
end

