-- ==== Sys2Proof/Machine/Egu.lean ====
section
/-! DEFINITION. The envelope generators and their commands (spec/42_envelope.md R230 to R265). The
arithmetic is exact, on unbounded integers (R231). -/

namespace Sys2Proof.Machine

/-- A zero attack, decay or release counts as 1 (R231). -/
def atLeastOne (x : BitVec 16) : Nat := max x.toNat 1

/-! ## The ADE (R232 to R234) -/

/-- ADE Trigger. -/
def adeTrigger (e : Ade) : Ade := { e with state := .attack, cur := 0, n := 0 }

/-- ADE Retrigger: only with the RETRIGGER flag. -/
def adeRetrigger (p : AdeParams) (e : Ade) : Ade := if p.retrigger then adeTrigger e else e

/-- ADE Release: only with the GATED flag, then in any state; `cur` is kept. -/
def adeRelease (p : AdeParams) (e : Ade) : Ade :=
  if p.gated then { e with state := .decay, n := 0 } else e

/-- One sample of an ADE: the counter, then the state's ramp (R233). `sh` is ADE_SHIFT. -/
def adeAdvance (sh : Nat) (p : AdeParams) (e : Ade) : Ade :=
  let n := satInc32 e.n
  match e.state with
  | .attack =>
    let r : Int := ((n.toNat <<< sh) / atLeastOne p.attack : Nat)
    if fs ≤ r then { state := if p.gated then .sustain else .decay, cur := wrap32 fs, n := 0 }
    else { e with cur := wrap32 r, n := n }
  | .sustain => { e with cur := wrap32 fs, n := n }
  | .decay =>
    let r : Int := fs - ((n.toNat <<< sh) / atLeastOne p.decay : Nat)
    if r ≤ p.endLevel.toInt then { state := .complete, cur := p.endLevel, n := 0 }
    else { e with cur := wrap32 r, n := n }
  | .complete => { e with n := n }

/-! ## The ADSR (R240, R241) -/

/-- ADSR Trigger: `cur` is kept and captured in `ref`. -/
def adsrTrigger (e : Adsr) : Adsr := { e with state := .attack, ref := e.cur, n := 0 }

/-- ADSR Retrigger: only with the RETRIGGER flag. -/
def adsrRetrigger (p : VcaParams) (e : Adsr) : Adsr := if p.retrigger then adsrTrigger e else e

/-- ADSR Release: `cur` is kept and captured in `ref`. -/
def adsrRelease (e : Adsr) : Adsr := { e with state := .release, ref := e.cur, n := 0 }

/-- One sample of the ADSR: the counter, then the state's ramp (R241). -/
def adsrAdvance (p : VcaParams) (e : Adsr) : Adsr :=
  let n := satInc32 e.n
  match e.state with
  | .attack =>
    let r : Int := ((n.toNat <<< 16) / atLeastOne p.attack : Nat)
    if fs ≤ r then { e with state := .decay, cur := wrap32 fs, n := 0 }
    else { e with cur := wrap32 (max e.ref.toInt r), n := n }
  | .decay =>
    if atLeastOne p.decay ≤ n.toNat then { e with state := .sustain, cur := p.sustain, n := 0 }
    else
      { e with
        cur := wrap32 (fs - Int.tdiv ((fs - p.sustain.toInt) * n.toNat) (atLeastOne p.decay))
        n := n }
  | .sustain => { e with cur := p.sustain, n := n }
  | .release =>
    if atLeastOne p.release ≤ n.toNat then { e with state := .complete, cur := 0, n := 0 }
    else
      { e with
        cur := wrap32 (e.ref.toInt - Int.tdiv (e.ref.toInt * n.toNat) (atLeastOne p.release))
        n := n }
  | .complete => { e with cur := 0, n := n }

/-! ## An envelope of a voice, by its unit -/

/-- Trigger envelope `e` of a voice (R250). -/
def envTrigger (e : EnvUnit) (x : Voice) : Voice :=
  match e with
  | .ade a => voiceSetAde x a (adeTrigger (voiceAde x a))
  | .vca => { x with vca := adsrTrigger x.vca }

/-- Retrigger envelope `e` of a voice (R251). -/
def envRetrigger (p : Params) (e : EnvUnit) (x : Voice) : Voice :=
  match e with
  | .ade a => voiceSetAde x a (adeRetrigger (adeParams p a) (voiceAde x a))
  | .vca => { x with vca := adsrRetrigger p.vca x.vca }

/-- Release envelope `e` of a voice (R252). -/
def envRelease (p : Params) (e : EnvUnit) (x : Voice) : Voice :=
  match e with
  | .ade a => voiceSetAde x a (adeRelease (adeParams p a) (voiceAde x a))
  | .vca => { x with vca := adsrRelease x.vca }

/-- Advance envelope `e` of a voice one sample (R253). -/
def envAdvance (sh : Nat) (p : Params) (e : EnvUnit) (x : Voice) : Voice :=
  match e with
  | .ade a => voiceSetAde x a (adeAdvance sh (adeParams p a) (voiceAde x a))
  | .vca => { x with vca := adsrAdvance p.vca x.vca }

/-- The gain of envelope `e` of a voice (R262). -/
def envCur (x : Voice) : EnvUnit → Word
  | .ade a => (voiceAde x a).cur
  | .vca => x.vca.cur

/-- The counter of envelope `e` of a voice (R264). -/
def envCount (x : Voice) : EnvUnit → Word
  | .ade a => (voiceAde x a).n
  | .vca => x.vca.n

/-- The code of an ADE state (R35). -/
def adeStateCode : AdeState → Word
  | .complete => 0
  | .attack => 1
  | .decay => 2
  | .sustain => 3

/-- The code of an ADSR state (R35). -/
def adsrStateCode : AdsrState → Word
  | .complete => 0
  | .attack => 1
  | .decay => 2
  | .sustain => 3
  | .release => 4

/-- The state code of envelope `e` of a voice (R263). -/
def envStateCode (x : Voice) : EnvUnit → Word
  | .ade a => adeStateCode (voiceAde x a).state
  | .vca => adsrStateCode x.vca.state

/-- Scale a signal by envelope `e` of voice `v`, which advances one sample (R253): the new state and
the scaled signal. -/
def envScale (s : State) (v : Nat) (e : EnvUnit) (sig : Word) : State × Word :=
  let x := envAdvance s.cfg.adeShift s.params e (voice s v)
  (setVoice s v x, fmul sig (envCur x e))

/-! ## The commands -/

/-- ETRIG (R250). -/
def execEtrig (v u : Byte) (s : State) : Out :=
  withVoice s .etrig v fun i =>
    withUnit s .etrig (envOfU u) fun e => ok (modifyVoice s i (envTrigger e)) 0

/-- ERETRIG (R251). -/
def execEretrig (v u : Byte) (s : State) : Out :=
  withVoice s .eretrig v fun i =>
    withUnit s .eretrig (envOfU u) fun e => ok (modifyVoice s i (envRetrigger s.params e)) 0

/-- EREL (R252). -/
def execErel (v u : Byte) (s : State) : Out :=
  withVoice s .erel v fun i =>
    withUnit s .erel (envOfU u) fun e => ok (modifyVoice s i (envRelease s.params e)) 0

/-- ESCALE (R253). -/
def execEscale (v u : Byte) (sig : Word) (s : State) : Out :=
  withVoice s .escale v fun i =>
    withUnit s .escale (envOfU u) fun e =>
      let r := envScale s i e sig
      ok r.1 r.2

/-- EIDX: Scale of the ADE's own INDEX register (R234, R254). -/
def execEidx (v u : Byte) (s : State) : Out :=
  withVoice s .eidx v fun i =>
    withUnit s .eidx (adeOfU u) fun a =>
      let r := envScale s i (.ade a) (paramRead s.params (.ade a .index))
      ok r.1 r.2

/-- ERDCUR (R262). -/
def execErdcur (v u : Byte) (s : State) : Out :=
  withVoice s .erdcur v fun i =>
    withUnit s .erdcur (envOfU u) fun e => ok s (envCur (voice s i) e)

/-- ERDST (R263). -/
def execErdst (v u : Byte) (s : State) : Out :=
  withVoice s .erdst v fun i =>
    withUnit s .erdst (envOfU u) fun e => ok s (envStateCode (voice s i) e)

/-- ERDCNT (R264). -/
def execErdcnt (v u : Byte) (s : State) : Out :=
  withVoice s .erdcnt v fun i =>
    withUnit s .erdcnt (envOfU u) fun e => ok s (envCount (voice s i) e)

/-- ERDREF: only the VCA has a `ref` register (R265). -/
def execErdref (v u : Byte) (s : State) : Out :=
  withVoice s .erdref v fun i =>
    withUnit s .erdref (adsrOfU u) fun _ => ok s (voice s i).vca.ref

end Sys2Proof.Machine
end

