-- ==== Sys2Proof/Machine/Fpu.lean ====
section
/-! DEFINITION. The fixed-point commands (spec/40_fixed_point.md R180 to R185). None changes any state
but the response. -/

namespace Sys2Proof.Machine

/-- FMUL (R180). -/
def execFmul (a b : Word) (s : State) : Out := ok s (fmul a b)

/-- FADD (R181). -/
def execFadd (a b : Word) (s : State) : Out := ok s (fadd a b)

/-- FSUB (R182). -/
def execFsub (a b : Word) (s : State) : Out := ok s (fsub a b)

/-- FSHR: only `opb[4:0]` counts (R183). -/
def execFshr (a k : Word) (s : State) : Out := ok s (fshr a (k.extractLsb' 0 5).toNat)

/-- FTO16: the int16 result sign-extended (R184). -/
def execFto16 (a : Word) (s : State) : Out := ok s ((to16 a).signExtend 32)

/-- FXMIX: reads `PARAM[MIX]` (R185). -/
def execFxmix (x y : Word) (s : State) : Out := ok s (xmix x y (paramRead s.params .mix))

end Sys2Proof.Machine
end

