-- ==== Sys2Proof/Machine/Mix.lean ====
section
/-! DEFINITION. Voice output, the mixer, the output FIFO and AUDIO_OUT (spec/45_mixer_output.md R380 to
R391). -/

namespace Sys2Proof.Machine

/-- A voice whose output `y` is latched for this sample period. -/
def voiceLatch (x : Voice) (y : Word) : Voice := { x with vout := y, rendered := true }

/-- VOUT: scale by the VCA and latch; HAZARD if already done in this period (R380). -/
def execVout (v : Byte) (sig : Word) (s : State) : Out :=
  withVoice s .vout v fun i =>
    if (voice s i).rendered then fail s .vout .hazard
    else
      let r := envScale s i .vca sig
      ok (modifyVoice r.1 i (fun x => voiceLatch x r.2)) r.2

/-- The contribution of channel `ch`: sample times level, then times ATTEN (R382). -/
def mixTerm (s : State) (ch : Nat) : Word :=
  fmul (fmul (voice s ch).vout (voice s ch).level) (atten s.cfg)

/-- The mixed sample, summed in ascending channel order (R382). -/
def mixSum (s : State) : Word :=
  (List.range s.cfg.nv).foldl (fun acc ch => fadd acc (mixTerm s ch)) 0

/-- MIXPUSH: BUSY on a full FIFO; else push the sum and begin a new sample period (R384). -/
def execMixpush (s : State) : Out :=
  if s.fifo.length = s.cfg.fifoDepth then fail s .mixpush .busy
  else
    let acc := mixSum s
    ok { s with
        fifo := s.fifo ++ [acc]
        voices := s.voices.map (fun x => { x with rendered := false }) } acc

/-- MLVLWR (R385). -/
def execMlvlwr (v : Byte) (level : Word) (s : State) : Out :=
  withVoice s .mlvlwr v fun i => ok (modifyVoice s i (fun x => { x with level := level })) 0

/-- MLVLRD (R386). -/
def execMlvlrd (v : Byte) (s : State) : Out :=
  withVoice s .mlvlrd v fun i => ok s (voice s i).level

/-- MVOUTRD (R387). -/
def execMvoutrd (v : Byte) (s : State) : Out :=
  withVoice s .mvoutrd v fun i => ok s (voice s i).vout

/-- FIFOLVL (R388). -/
def execFifolvl (s : State) : Out := ok s (BitVec.ofNat 32 s.fifo.length)

/-- POP, one AUDIO_OUT transaction: the oldest sample as 16-bit PCM, or silence and an underrun (R390,
R391). -/
def execPop (s : State) : Out :=
  match s.fifo with
  | h :: rest => .next { s with fifo := rest, response := .audio (to16 h) false }
  | [] => .next { s with log := logUnderrun s.log, response := .audio 0 true }

end Sys2Proof.Machine
end

