-- ==== Sys2Proof/Machine/Opu.lean ====
section
/-! DEFINITION. The operator and its commands (spec/41_operator.md R200 to R208). -/

namespace Sys2Proof.Machine

/-- One phase update: the truncated remainder, a negative one clamped to 0 (R204). -/
def pstep (sr p : Nat) (d : Int) : Nat :=
  let q := Int.tmod ((p : Int) + d) sr
  if q < 0 then 0 else q.toNat

/-- Operator `u` carries feedback and the amount is not 0 (R201, R205 step 5). -/
def feedbackActive (s : State) (u : OpUnit) : Bool :=
  s.fbOwner.en && s.fbOwner.op == u && paramRead s.params .feedback != 0

/-- The new phase of operator `u` at phase `p` (R205). The second update, with feedback, starts from
the phase and the sample of the first. -/
def rotatePhase (s : State) (u : OpUnit) (p : Nat) (freq pm : Word) : Nat :=
  let f := fadd (fmul freq (paramRead s.params (.ratio u))) pm
  let p1 := pstep s.cfg.sr p (asr f.toInt 16)
  if feedbackActive s u then
    pstep s.cfg.sr p1 (asr (fmul (sineAt s.cfg p1) (paramRead s.params .feedback)).toInt 16)
  else p1

/-- A voice with the phase of operator `u` replaced. -/
def voiceSetPhase (x : Voice) (u : OpUnit) (p : Nat) : Voice :=
  { x with phase := perOpSet x.phase u p }

/-- OPROT: rotate an operator one sample; the sample returned is the table entry at the new phase
(R205, R206). -/
def execOprot (v u : Byte) (freq pm : Word) (s : State) : Out :=
  withVoice s .oprot v fun i =>
    withUnit s .oprot (opOfU u) fun op =>
      let p := rotatePhase s op (perOpGet (voice s i).phase op) freq pm
      ok (modifyVoice s i (fun x => voiceSetPhase x op p)) (sineAt s.cfg p)

/-- OPRD: read an operator's phase (R207). -/
def execOprd (v u : Byte) (s : State) : Out :=
  withVoice s .oprd v fun i =>
    withUnit s .oprd (opOfU u) fun op =>
      ok s (BitVec.ofNat 32 (perOpGet (voice s i).phase op))

/-- OPWR: set an operator's phase, RANGE at SR or above (R208). -/
def execOpwr (v u : Byte) (phase : Word) (s : State) : Out :=
  withVoice s .opwr v fun i =>
    withUnit s .opwr (opOfU u) fun op =>
      if s.cfg.sr ≤ phase.toNat then fail s .opwr .range
      else ok (modifyVoice s i (fun x => voiceSetPhase x op phase.toNat)) 0

end Sys2Proof.Machine
end

