-- ==== Sys2Proof/Machine/Prf.lean ====
section
/-! DEFINITION. The patch register file commands (spec/43_patch.md R284 to R300). -/

namespace Sys2Proof.Machine

/-- PRD: BADID is checked before KIND (R285, R291). -/
def execPrd (u : Byte) (id : Word) (s : State) : Out :=
  withUnit s .prd (selOfU 5 u) fun k =>
    withOperand s .prd .badId (pidOfWord id) fun p =>
      if k ≠ 0 ∧ k ≠ kindCode (pidKind p) then fail s .prd .kind
      else ok s (paramRead s.params p)

/-- PWR (R292). -/
def execPwr (id val : Word) (s : State) : Out :=
  withOperand s .pwr .badId (pidOfWord id) fun p => ok (setParam s p val) 0

/-- The kind code of an operand, 0 for an id with no register (R284, R295). -/
def kindOfWord (id : Word) : Nat :=
  match pidOfWord id with
  | some p => kindCode (pidKind p)
  | none => 0

/-- PKIND (R295). -/
def execPkind (id : Word) (s : State) : Out := ok s (BitVec.ofNat 32 (kindOfWord id))

/-- CCWR: RANGE is checked before BADID; an unbinding does not look at the id (R293). -/
def execCcwr (cc binding : Word) (s : State) : Out :=
  withOperand s .ccwr .range (data7OfWord cc) fun c =>
    if binding.getLsbD 8 then
      withOperand s .ccwr .badId (pidOfId (binding.setWidth 8)) fun p => ok (bindCc s c p) 0
    else ok (unbindCc s c) 0

/-- CCRD (R294). -/
def execCcrd (cc : Word) (s : State) : Out :=
  withOperand s .ccrd .range (data7OfWord cc) fun c => ok s (entryWord (ccEntry (ccBinding s c)))

/-- NPOP: an empty queue is no error and reads 0 (R297). -/
def execNpop (s : State) : Out :=
  match s.nq with
  | [] => ok s 0
  | p :: rest => ok { s with nq := rest } (entryWord (some (pidId p)))

/-- PAPPLY: latch the feedback owner of the operand and the ALGORITHM register (R299). -/
def execPapply (owner : Word) (s : State) : Out :=
  ok { s with
      fbOwner := ⟨owner.getLsbD 2, opOfCode (owner.setWidth 2)⟩
      algActive := s.params.algorithm } 0

/-- PAPRD (R300). -/
def execPaprd (s : State) : Out :=
  ok s (s.algActive.setWidth 32 <<< 8 ||| bitWord s.fbOwner.en <<< 2
    ||| (opCode s.fbOwner.op).setWidth 32)

end Sys2Proof.Machine
end

