-- ==== Sys2Proof/Machine/Sys.lean ====
section
/-! DEFINITION. The system commands (spec/46_system.md R410 to R416) and the RESET transaction
(spec/70_reset_and_hazards.md R470). -/

namespace Sys2Proof.Machine

/-- NOP (R415). -/
def execNop (s : State) : Out := ok s 0

/-- STRD (R410). -/
def execStrd (s : State) : Out := ok s (statusWord s)

/-- STCLR (R411). -/
def execStclr (mask : Word) (s : State) : Out :=
  ok { s with log := logClearSticky s.log mask } 0

/-- CNTRD (R413). -/
def execCntrd (u : Byte) (s : State) : Out :=
  withUnit s .cntrd (selOfU 6 u) fun k => ok s (logRead s.log k)

/-- CNTCLR (R414). -/
def execCntclr (u : Byte) (s : State) : Out :=
  withUnit s .cntclr (selOfU 6 u) fun k => ok { s with log := logZero s.log k } 0

/-- IDRD (R412). -/
def execIdrd (s : State) : Out := ok s 0x464D0001

/-- The configuration parameter of a select of class CFG (R48, R416). -/
def cfgRead (c : Config) : Nat → Word
  | 0 => BitVec.ofNat 32 c.sr
  | 1 => BitVec.ofNat 32 c.nv
  | 2 => BitVec.ofNat 32 c.fifoDepth
  | 3 => BitVec.ofNat 32 c.notifyDepth
  | 4 => BitVec.ofNat 32 c.adeShift
  | _ => atten c

/-- CFGRD (R416). -/
def execCfgrd (u : Byte) (s : State) : Out :=
  withUnit s .cfgrd (selOfU 6 u) fun k => ok s (cfgRead s.cfg k)

/-- RESET: every piece of state takes its reset value; the configuration and the transactions that
come after it stay (R470, R472, assumption 14). -/
def execReset (s : State) : Out := .next { State.powerOn s.cfg with pending := s.pending }

end Sys2Proof.Machine
end

