-- ==== Sys2Proof/Machine/Vau.lean ====
section
/-! DEFINITION. The voice controller, the voice allocator, MIDI_IN and the voice read-back commands
(spec/44_voice_alloc.md R330 to R364, spec/43_patch.md R296). -/

namespace Sys2Proof.Machine

/-! ## The voice controller (R343 to R346) -/

/-- VTRIG: set the pitch and trigger the three envelopes. -/
def voiceTrigger (c : Config) (n : Data7) (x : Voice) : Voice :=
  { x with
    pitch := noteAt c n
    envA := adeTrigger x.envA
    envB := adeTrigger x.envB
    vca := adsrTrigger x.vca }

/-- VRETRIG: set the pitch and retrigger the three envelopes, each as its flag says. -/
def voiceRetrigger (c : Config) (p : Params) (n : Data7) (x : Voice) : Voice :=
  { x with
    pitch := noteAt c n
    envA := adeRetrigger p.envA x.envA
    envB := adeRetrigger p.envB x.envB
    vca := adsrRetrigger p.vca x.vca }

/-- VREL: release the three envelopes; the pitch is kept. -/
def voiceRelease (p : Params) (x : Voice) : Voice :=
  { x with
    envA := adeRelease p.envA x.envA
    envB := adeRelease p.envB x.envB
    vca := adsrRelease x.vca }

/-- Push a note that is not in the stack (R345). -/
def stackPush (l : List Data7) (n : Data7) : List Data7 := if n ∈ l then l else l ++ [n]

/-- Voice NoteOn: trigger when the note is the only one held, else retrigger (R345). -/
def voiceNoteOn (c : Config) (p : Params) (n : Data7) (x : Voice) : Voice :=
  let y := { x with stack := stackPush x.stack n }
  if y.stack.length = 1 then voiceTrigger c n y else voiceRetrigger c p n y

/-- Voice NoteOff: retrigger to the new top note, or release (R346). -/
def voiceNoteOff (c : Config) (p : Params) (n : Data7) (x : Voice) : Voice :=
  let y := { x with stack := x.stack.filter (fun m => m != n) }
  match y.stack.getLast? with
  | some top => voiceRetrigger c p top y
  | none => voiceRelease p y

/-! ## The allocator (R350 to R352) -/

/-- The distance of voice `v`'s current note to `n`. -/
def noteDistance (s : State) (n : Data7) (v : Nat) : Nat :=
  ((curNote (voice s v) : Int) - (n.val : Int)).natAbs

/-- The voice with the nearest current note, ties to the lowest index: the second loop of R351. -/
def nearestVoice (s : State) (n : Data7) : Nat :=
  (List.range' 1 (s.cfg.nv - 1)).foldl
    (fun best v => if noteDistance s n v < noteDistance s n best then v else best) 0

/-- The voice for a note: the first idle one, else the nearest (R351). -/
def allocate (s : State) (n : Data7) : Nat :=
  match (List.range s.cfg.nv).find? (fun v => curNote (voice s v) == 0) with
  | some v => v
  | none => nearestVoice s n

/-- Engine NoteOn (R350). -/
def engineNoteOn (s : State) (n : Data7) : State :=
  let v := allocate s n
  modifyVoice (setNoteOwner s n (some (BitVec.ofNat 8 v))) v (voiceNoteOn s.cfg s.params n)

/-- Engine NoteOff; `b0` is the status byte a diagnostic records (R352). -/
def engineNoteOff (s : State) (b0 : Byte) (n : Data7) : State :=
  match noteOwner s n with
  | none => diagnose s 3 b0 n
  | some v => modifyVoice (setNoteOwner s n none) v.toNat (voiceNoteOff s.cfg s.params n)

/-- Control change: write the bound register with the converted value (R296). -/
def midiControl (s : State) (b0 : Byte) (c val : Data7) : State :=
  match ccBinding s c with
  | none => diagnose s 2 b0 c
  | some p => setParam s p (ccConv (pidKind p) val)

/-! ## MIDI_IN (R330) -/

/-- MIDI_IN NoteOn. With VEL0_IS_NOTEOFF a velocity of 0 makes it a NoteOff (R332). -/
def execMidiNoteOn (ch : BitVec 4) (b1 b2 : Byte) (s : State) : Out :=
  if s.cfg.vel0IsNoteOff = true ∧ (clampData b2).val = 0 then
    .next (engineNoteOff (silent s) (midiStatus 0x9 ch) (clampData b1))
  else .next (engineNoteOn (silent s) (clampData b1))

/-- MIDI_IN NoteOff. -/
def execMidiNoteOff (ch : BitVec 4) (b1 : Byte) (s : State) : Out :=
  .next (engineNoteOff (silent s) (midiStatus 0x8 ch) (clampData b1))

/-- MIDI_IN control change. -/
def execMidiCc (ch : BitVec 4) (b1 b2 : Byte) (s : State) : Out :=
  .next (midiControl (silent s) (midiStatus 0xB ch) (clampData b1) (clampData b2))

/-- MIDI_IN with any other status nibble: ignored, with a diagnostic (R333). -/
def execMidiOther (b0 b1 : Byte) (s : State) : Out :=
  .next (diagnose (silent s) 1 b0 (clampData b1))

/-! ## Read-back commands (R360 to R364) -/

/-- VPITCH (R360). -/
def execVpitch (v : Byte) (s : State) : Out :=
  withVoice s .vpitch v fun i => ok s (voice s i).pitch

/-- VCUR (R361). -/
def execVcur (v : Byte) (s : State) : Out :=
  withVoice s .vcur v fun i => ok s (BitVec.ofNat 32 (curNote (voice s i)))

/-- VSLEN (R362). -/
def execVslen (v : Byte) (s : State) : Out :=
  withVoice s .vslen v fun i => ok s (BitVec.ofNat 32 (voice s i).stack.length)

/-- VSTK: index 0 is the oldest entry (R363). -/
def execVstk (v : Byte) (idx : Word) (s : State) : Out :=
  withVoice s .vstk v fun i =>
    withOperand s .vstk .range ((voice s i).stack[idx.toNat]?) fun n => ok s (BitVec.ofNat 32 n.val)

/-- VMAP (R364). -/
def execVmap (note : Word) (s : State) : Out :=
  withOperand s .vmap .range (data7OfWord note) fun n => ok s (entryWord (noteOwner s n))

end Sys2Proof.Machine
end

