-- ==== Sys2Proof/Machine/Dispatch.lean ====
section
/-! DEFINITION. The dispatch: one arm per instruction, each one direct call of its meaning. -/

namespace Sys2Proof.Machine

/-- What an instruction does in a state. -/
def exec (i : Instr) (s : State) : Host.Outcome State Fault Refusal :=
  match i with
  | .nop => Sys2Proof.Machine.execNop s
  | .fmul a b => Sys2Proof.Machine.execFmul a b s
  | .fadd a b => Sys2Proof.Machine.execFadd a b s
  | .fsub a b => Sys2Proof.Machine.execFsub a b s
  | .fshr a k => Sys2Proof.Machine.execFshr a k s
  | .fto16 a => Sys2Proof.Machine.execFto16 a s
  | .fxmix x y => Sys2Proof.Machine.execFxmix x y s
  | .oprot v u freq pm => Sys2Proof.Machine.execOprot v u freq pm s
  | .oprd v u => Sys2Proof.Machine.execOprd v u s
  | .opwr v u phase => Sys2Proof.Machine.execOpwr v u phase s
  | .etrig v u => Sys2Proof.Machine.execEtrig v u s
  | .eretrig v u => Sys2Proof.Machine.execEretrig v u s
  | .erel v u => Sys2Proof.Machine.execErel v u s
  | .escale v u sig => Sys2Proof.Machine.execEscale v u sig s
  | .eidx v u => Sys2Proof.Machine.execEidx v u s
  | .erdcur v u => Sys2Proof.Machine.execErdcur v u s
  | .erdst v u => Sys2Proof.Machine.execErdst v u s
  | .erdcnt v u => Sys2Proof.Machine.execErdcnt v u s
  | .erdref v u => Sys2Proof.Machine.execErdref v u s
  | .vout v sig => Sys2Proof.Machine.execVout v sig s
  | .vpitch v => Sys2Proof.Machine.execVpitch v s
  | .vcur v => Sys2Proof.Machine.execVcur v s
  | .vslen v => Sys2Proof.Machine.execVslen v s
  | .vstk v idx => Sys2Proof.Machine.execVstk v idx s
  | .vmap note => Sys2Proof.Machine.execVmap note s
  | .mixpush => Sys2Proof.Machine.execMixpush s
  | .mlvlwr v level => Sys2Proof.Machine.execMlvlwr v level s
  | .mlvlrd v => Sys2Proof.Machine.execMlvlrd v s
  | .mvoutrd v => Sys2Proof.Machine.execMvoutrd v s
  | .fifolvl => Sys2Proof.Machine.execFifolvl s
  | .prd u id => Sys2Proof.Machine.execPrd u id s
  | .pwr id val => Sys2Proof.Machine.execPwr id val s
  | .pkind id => Sys2Proof.Machine.execPkind id s
  | .ccwr cc binding => Sys2Proof.Machine.execCcwr cc binding s
  | .ccrd cc => Sys2Proof.Machine.execCcrd cc s
  | .npop => Sys2Proof.Machine.execNpop s
  | .papply owner => Sys2Proof.Machine.execPapply owner s
  | .paprd => Sys2Proof.Machine.execPaprd s
  | .strd => Sys2Proof.Machine.execStrd s
  | .stclr mask => Sys2Proof.Machine.execStclr mask s
  | .cntrd u => Sys2Proof.Machine.execCntrd u s
  | .cntclr u => Sys2Proof.Machine.execCntclr u s
  | .idrd => Sys2Proof.Machine.execIdrd s
  | .cfgrd u => Sys2Proof.Machine.execCfgrd u s
  | .midiNoteOn ch b1 b2 => Sys2Proof.Machine.execMidiNoteOn ch b1 b2 s
  | .midiNoteOff ch b1 _ => Sys2Proof.Machine.execMidiNoteOff ch b1 s
  | .midiCc ch b1 b2 => Sys2Proof.Machine.execMidiCc ch b1 b2 s
  | .midiOther b0 b1 _ => Sys2Proof.Machine.execMidiOther b0 b1 s
  | .pop => Sys2Proof.Machine.execPop s
  | .reset => Sys2Proof.Machine.execReset s

end Sys2Proof.Machine
end

