-- ==== Sys2Proof/Machine/Step.lean ====
section
/-! DEFINITION. One step of FMCORE: the next transaction of the environment's order, applied atomically
(spec/20_memory.md R104, R110). -/

namespace Sys2Proof.Machine

/-- Apply the next transaction. A CMD request that stands for no instruction ends with ILLEGAL (R135,
R138); with no transaction to apply FMCORE does nothing (R446, assumption 2). -/
def step (s : State) : Host.Outcome State Fault Refusal :=
  match fetch s with
  | none => .next s
  | some (r, s') =>
    match decode r with
    | .ok i => exec i s'
    | .error _ => .next (rejectRequest s' r)

/-- The state whose next transaction is that of a table word (assumption 7). -/
def State.withFetchWord (s : State) (nbits w : Nat) : State := deliver s (tableRequest nbits w)

end Sys2Proof.Machine
end

