-- ==== Sys2Proof/Safety.lean ====
section
/-! DEFINITION. The terms the statements use: the invariant of the machine, what a run that never stops
is, and the spec's unit codes, errors and diagnostics written as numbers, apart from the model's own
functions. -/

namespace Sys2Proof.Machine

/-! ## The invariant -/

/-- What holds of every state that a legal instance reaches: the sizes of R32 to R43, a phase inside
the sine ROM (R32), distinct notes in a stack (R37), a note map whose entry names a voice that holds
the note (R350, R353), a register bound to at most one CC (R289), and the reserved bits of the capture
registers 0 (R46). -/
structure State.Inv (s : State) : Prop where
  cfg_legal         : s.cfg.Legal
  voice_count       : s.voices.length = s.cfg.nv
  phase_in_rom      : ∀ x ∈ s.voices, ∀ u, perOpGet x.phase u < s.cfg.sr
  stack_distinct    : ∀ x ∈ s.voices, x.stack.Nodup
  note_count        : s.noteMap.length = 128
  owner_holds_note  : ∀ n v, noteOwner s n = some v →
                        v.toNat < s.cfg.nv ∧ n ∈ (voice s v.toNat).stack
  cc_count          : s.ccMap.length = 128
  cc_distinct       : s.ccMap.Pairwise (fun x y => x = none ∨ x ≠ y)
  fifo_bound        : s.fifo.length ≤ s.cfg.fifoDepth
  nq_bound          : s.nq.length ≤ s.cfg.notifyDepth
  lastErr_reserved  : s.log.lastErr.toNat < 2 ^ 16
  lastDiag_reserved : s.log.lastDiag.toNat < 2 ^ 24

/-- A run of `k` steps from `s` never ends in a fault or a refusal. -/
def State.Runs (s : State) (k : Nat) : Prop :=
  ∃ t, Host.Core.run core k s = .next t

/-! ## The spec's numbers -/

/-- The U field that names an operator (R133 class OP). -/
def opByte : OpUnit → Byte
  | .a => 0x00
  | .b1 => 0x01
  | .b2 => 0x02
  | .c => 0x03

/-- The U field that names an ADE (R133 class ADE). -/
def adeByte : AdeUnit → Byte
  | .envA => 0x00
  | .envB => 0x01

/-- The U field that names an envelope (R133 class ENV). -/
def envByte : EnvUnit → Byte
  | .ade e => adeByte e
  | .vca => 0x02

/-- The number of a status (R136). -/
def statusNumber : Status → Nat
  | .ok => 0
  | .illegal => 1
  | .range => 2
  | .badId => 3
  | .kind => 4
  | .busy => 5
  | .hazard => 6

/-- The integer after a 32-bit unsigned one, staying at 2^32 - 1 (R11 `sat_inc32`). -/
def satSucc (n : Word) : Nat := min (n.toNat + 1) (2 ^ 32 - 1)

/-- The state after a CMD transaction that ended OK with result `res` and changed nothing else. -/
def answered (s : State) (res : Word) : State := { s with response := .cmd .ok res }

/-- The state after a CMD transaction with opcode byte `opc` that ended with the error `st`, which is
not BUSY (R432). -/
def afterError (s : State) (opc : Byte) (st : Status) : State :=
  { s with
    response := .cmd st 0
    log := { s.log with
      cmdErr := true
      cntCmdErr := BitVec.ofNat 32 (satSucc s.log.cntCmdErr)
      lastErr := BitVec.ofNat 32 (opc.toNat * 256 + statusNumber st) } }

/-- The state after a MIDI transaction that was ignored with diagnostic `cause` (R434). -/
def afterDiag (s : State) (cause : Nat) (b0 : Byte) (b1 : Nat) : State :=
  { s with
    response := .none
    log := { s.log with
      midiDiag := true
      cntMidiDiag := BitVec.ofNat 32 (satSucc s.log.cntMidiDiag)
      lastDiag := BitVec.ofNat 32 (b1 * 65536 + b0.toNat * 256 + cause) } }

/-- The sample that instruction `i`, answered by `r`, pushed into the output FIFO: the result of a MIXPUSH
that ended OK (R384). -/
def pushedSample (i : Instr) (r : Response) : List Word :=
  match r with
  | .cmd .ok y => if i = .mixpush then [y] else []
  | _ => []

/-- The sample that an AUDIO_OUT answer delivers: none when the pop underran (R391). -/
def deliveredSample (r : Response) : List (BitVec 16) :=
  match r with
  | .audio y false => [y]
  | _ => []

/-- A run of instructions: the samples that MIXPUSH pushed in it and the samples that AUDIO_OUT delivered,
each oldest first, and the state after it. -/
def sampleRun : List Instr → State → Option (List Word × List (BitVec 16) × State)
  | [], s => some ([], [], s)
  | i :: rest, s =>
    match exec i s with
    | .next t =>
      match sampleRun rest t with
      | some (pushed, popped, u) =>
        some (pushedSample i t.response ++ pushed, deliveredSample t.response ++ popped, u)
      | none => none
    | .fault _ => none
    | .refused _ => none

end Sys2Proof.Machine
end

