-- ==== Sys2Proof/Certificates/Slice0/Obligations.lean ====
section
/-! DEFINITION. The statements about FMCORE, for the provers. Each docstring says which rules of spec/
it formalises. Command words are written as `OPC ++ V ++ U ++ Z` (spec/30_encoding.md R132). -/

open Sys2Proof Sys2Proof.Machine

/-! ## Encoding -/

/-- Decoding gives back every encoded instruction, as a request and as the bytes of its port. Every
instruction is `encodable` but a `midiOther` that carries the status nibble of another constructor
(R132, R137, R140, R141). -/
def Obligations.DecodeOfEncodeIsIdentity : Prop :=
  ∀ i : Instr, i.encodable = true →
    decode (encode i) = .ok i ∧ decodeBytes i.port (encode i).toBytes = .ok i

/-- The other direction: a request that decodes is the encoding of what it decodes to. The encoding of a
CMD instruction has the same command word and decodes to the same instruction, and each of its operand
words is the one delivered, or is 0 where the opcode ignores that word: whatever word stands there, the
request decodes to the same instruction (R131, R137, R145). -/
def Obligations.EncodeOfDecodeIsTheRequest : Prop :=
  ∀ (r : Request) (i : Instr), decode r = .ok i →
    i.encodable = true ∧
    match r with
    | .cmd w a b => ∃ a' b', encode i = .cmd w a' b' ∧ decode (.cmd w a' b') = .ok i ∧
        (a' = a ∨ a' = 0 ∧ ∀ x, decode (.cmd w x b) = .ok i) ∧
        (b' = b ∨ b' = 0 ∧ ∀ x, decode (.cmd w a x) = .ok i)
    | .midi b0 b1 b2 => encode i = .midi b0 b1 b2
    | .audioOut => encode i = .audioOut
    | .reset => encode i = .reset

/-- Words written out from R146, R141, R142 and R143 decode to the instructions they stand for. -/
def Obligations.SpelledOutWordsDecode : Prop :=
  decode (.cmd 0x01000000 0x18000 0x8000) = .ok (.fmul 0x18000 0x8000) ∧
  decode (.cmd 0x12010300 100 7) = .ok (.opwr 1 3 100) ∧
  decode (.cmd 0x28000200 5 6) = .ok (.erdref 0 2) ∧
  decode (.cmd 0x41030000 0x8000 0) = .ok (.mlvlwr 3 0x8000) ∧
  decode (.cmd 0x50000400 2 0) = .ok (.prd 4 2) ∧
  decode (.cmd 0x65000100 0 0) = .ok (.cfgrd 1) ∧
  decode (.midi 0x9F 200 255) = .ok (.midiNoteOn 0xF 200 255) ∧
  decode (.midi 0x45 1 2) = .ok (.midiOther 0x45 1 2) ∧
  decode .audioOut = .ok .pop ∧ decode .reset = .ok .reset

/-- The opcode map of R137, row by row: the command word of each row, with its V and U fields at any
value where the row has them, decodes to its instruction with exactly the operand words it uses. -/
def Obligations.CommandWordsOfTheOpcodeMap : Prop :=
  ∀ (v u : Byte) (a b : Word),
    decode (.cmd (0x00#8 ++ 0#8 ++ 0#8 ++ 0#8) a b) = .ok .nop ∧
    decode (.cmd (0x01#8 ++ 0#8 ++ 0#8 ++ 0#8) a b) = .ok (.fmul a b) ∧
    decode (.cmd (0x02#8 ++ 0#8 ++ 0#8 ++ 0#8) a b) = .ok (.fadd a b) ∧
    decode (.cmd (0x03#8 ++ 0#8 ++ 0#8 ++ 0#8) a b) = .ok (.fsub a b) ∧
    decode (.cmd (0x04#8 ++ 0#8 ++ 0#8 ++ 0#8) a b) = .ok (.fshr a b) ∧
    decode (.cmd (0x05#8 ++ 0#8 ++ 0#8 ++ 0#8) a b) = .ok (.fto16 a) ∧
    decode (.cmd (0x06#8 ++ 0#8 ++ 0#8 ++ 0#8) a b) = .ok (.fxmix a b) ∧
    decode (.cmd (0x10#8 ++ v ++ u ++ 0#8) a b) = .ok (.oprot v u a b) ∧
    decode (.cmd (0x11#8 ++ v ++ u ++ 0#8) a b) = .ok (.oprd v u) ∧
    decode (.cmd (0x12#8 ++ v ++ u ++ 0#8) a b) = .ok (.opwr v u a) ∧
    decode (.cmd (0x20#8 ++ v ++ u ++ 0#8) a b) = .ok (.etrig v u) ∧
    decode (.cmd (0x21#8 ++ v ++ u ++ 0#8) a b) = .ok (.eretrig v u) ∧
    decode (.cmd (0x22#8 ++ v ++ u ++ 0#8) a b) = .ok (.erel v u) ∧
    decode (.cmd (0x23#8 ++ v ++ u ++ 0#8) a b) = .ok (.escale v u a) ∧
    decode (.cmd (0x24#8 ++ v ++ u ++ 0#8) a b) = .ok (.eidx v u) ∧
    decode (.cmd (0x25#8 ++ v ++ u ++ 0#8) a b) = .ok (.erdcur v u) ∧
    decode (.cmd (0x26#8 ++ v ++ u ++ 0#8) a b) = .ok (.erdst v u) ∧
    decode (.cmd (0x27#8 ++ v ++ u ++ 0#8) a b) = .ok (.erdcnt v u) ∧
    decode (.cmd (0x28#8 ++ v ++ u ++ 0#8) a b) = .ok (.erdref v u) ∧
    decode (.cmd (0x30#8 ++ v ++ 0#8 ++ 0#8) a b) = .ok (.vout v a) ∧
    decode (.cmd (0x31#8 ++ v ++ 0#8 ++ 0#8) a b) = .ok (.vpitch v) ∧
    decode (.cmd (0x32#8 ++ v ++ 0#8 ++ 0#8) a b) = .ok (.vcur v) ∧
    decode (.cmd (0x33#8 ++ v ++ 0#8 ++ 0#8) a b) = .ok (.vslen v) ∧
    decode (.cmd (0x34#8 ++ v ++ 0#8 ++ 0#8) a b) = .ok (.vstk v a) ∧
    decode (.cmd (0x35#8 ++ 0#8 ++ 0#8 ++ 0#8) a b) = .ok (.vmap a) ∧
    decode (.cmd (0x40#8 ++ 0#8 ++ 0#8 ++ 0#8) a b) = .ok .mixpush ∧
    decode (.cmd (0x41#8 ++ v ++ 0#8 ++ 0#8) a b) = .ok (.mlvlwr v a) ∧
    decode (.cmd (0x42#8 ++ v ++ 0#8 ++ 0#8) a b) = .ok (.mlvlrd v) ∧
    decode (.cmd (0x43#8 ++ v ++ 0#8 ++ 0#8) a b) = .ok (.mvoutrd v) ∧
    decode (.cmd (0x44#8 ++ 0#8 ++ 0#8 ++ 0#8) a b) = .ok .fifolvl ∧
    decode (.cmd (0x50#8 ++ 0#8 ++ u ++ 0#8) a b) = .ok (.prd u a) ∧
    decode (.cmd (0x51#8 ++ 0#8 ++ 0#8 ++ 0#8) a b) = .ok (.pwr a b) ∧
    decode (.cmd (0x52#8 ++ 0#8 ++ 0#8 ++ 0#8) a b) = .ok (.pkind a) ∧
    decode (.cmd (0x53#8 ++ 0#8 ++ 0#8 ++ 0#8) a b) = .ok (.ccwr a b) ∧
    decode (.cmd (0x54#8 ++ 0#8 ++ 0#8 ++ 0#8) a b) = .ok (.ccrd a) ∧
    decode (.cmd (0x55#8 ++ 0#8 ++ 0#8 ++ 0#8) a b) = .ok .npop ∧
    decode (.cmd (0x56#8 ++ 0#8 ++ 0#8 ++ 0#8) a b) = .ok (.papply a) ∧
    decode (.cmd (0x57#8 ++ 0#8 ++ 0#8 ++ 0#8) a b) = .ok .paprd ∧
    decode (.cmd (0x60#8 ++ 0#8 ++ 0#8 ++ 0#8) a b) = .ok .strd ∧
    decode (.cmd (0x61#8 ++ 0#8 ++ 0#8 ++ 0#8) a b) = .ok (.stclr a) ∧
    decode (.cmd (0x62#8 ++ 0#8 ++ u ++ 0#8) a b) = .ok (.cntrd u) ∧
    decode (.cmd (0x63#8 ++ 0#8 ++ u ++ 0#8) a b) = .ok (.cntclr u) ∧
    decode (.cmd (0x64#8 ++ 0#8 ++ 0#8 ++ 0#8) a b) = .ok .idrd ∧
    decode (.cmd (0x65#8 ++ 0#8 ++ u ++ 0#8) a b) = .ok (.cfgrd u)

/-- The ILLEGAL checks of R135 and R138, by numbers: a command word stands for an instruction exactly
when its opcode byte is in one of the ranges of the map, Z is 0, V is 0 unless the opcode is one of
0x10..0x12, 0x20..0x28, 0x30..0x34, 0x41..0x43, and U is 0 unless the opcode is one of 0x10..0x12,
0x20..0x28, 0x50, 0x62, 0x63, 0x65. -/
def Obligations.OnlyTheOpcodeMapDecodes : Prop :=
  ∀ opc v u z : Byte, ∀ a b : Word,
    ((∃ i, decode (.cmd (opc ++ v ++ u ++ z) a b) = .ok i) ↔
      (opc.toNat ≤ 0x06 ∨ (0x10 ≤ opc.toNat ∧ opc.toNat ≤ 0x12) ∨
        (0x20 ≤ opc.toNat ∧ opc.toNat ≤ 0x28) ∨ (0x30 ≤ opc.toNat ∧ opc.toNat ≤ 0x35) ∨
        (0x40 ≤ opc.toNat ∧ opc.toNat ≤ 0x44) ∨ (0x50 ≤ opc.toNat ∧ opc.toNat ≤ 0x57) ∨
        (0x60 ≤ opc.toNat ∧ opc.toNat ≤ 0x65)) ∧
      z = 0 ∧
      (v = 0 ∨ (0x10 ≤ opc.toNat ∧ opc.toNat ≤ 0x12) ∨ (0x20 ≤ opc.toNat ∧ opc.toNat ≤ 0x28) ∨
        (0x30 ≤ opc.toNat ∧ opc.toNat ≤ 0x34) ∨ (0x41 ≤ opc.toNat ∧ opc.toNat ≤ 0x43)) ∧
      (u = 0 ∨ (0x10 ≤ opc.toNat ∧ opc.toNat ≤ 0x12) ∨ (0x20 ≤ opc.toNat ∧ opc.toNat ≤ 0x28) ∨
        opc = 0x50 ∨ opc = 0x62 ∨ opc = 0x63 ∨ opc = 0x65))

/-! ## The step -/

/-- A step applies the instruction that the next transaction stands for, to the state without that
transaction; nothing else is added around `exec` (R104, R110). -/
def Obligations.StepRunsTheDecodedInstruction : Prop :=
  ∀ (s : State) (r : Request) (rest : List Request) (i : Instr),
    s.pending = r :: rest → decode r = .ok i → step s = exec i { s with pending := rest }

/-- A CMD transaction that stands for no instruction ends with ILLEGAL, records its opcode byte and
has no other effect (R138, R432). -/
def Obligations.UndecodableCommandAnswersIllegal : Prop :=
  ∀ (s : State) (opc v u z : Byte) (a b : Word) (rest : List Request),
    s.pending = .cmd (opc ++ v ++ u ++ z) a b :: rest →
    (∀ i, decode (.cmd (opc ++ v ++ u ++ z) a b) ≠ .ok i) →
    step s = .next (afterError { s with pending := rest } opc .illegal)

/-- A step takes exactly the oldest pending transaction, whatever it is, RESET included; with none
pending it changes nothing (R111, R446; assumptions 2 and 14). -/
def Obligations.EachStepTakesOneTransaction : Prop :=
  ∀ s t : State, step s = .next t →
    t.pending = s.pending.tail ∧ (s.pending = [] → t = s)

/-- No step ends in a fault or a refusal, and so no run does (R430). -/
def Obligations.EveryRunGoesOn : Prop :=
  (∀ s : State, ∃ t, step s = .next t) ∧ ∀ (s : State) (k : Nat), s.Runs k

/-- The invariant of the machine is kept by every step. -/
def Obligations.EveryStepKeepsTheInvariant : Prop :=
  ∀ s t : State, s.Inv → step s = .next t → t.Inv

/-- The invariant holds after reset, of every legal instance. -/
def Obligations.ResetMeetsTheInvariant : Prop :=
  State.reset.Inv ∧ ∀ c : Config, c.Legal → (State.powerOn c).Inv

/-! ## Whole-machine rules -/

/-- A CMD transaction that does not end OK answers 0 and changes only the log: nothing for BUSY, and
for any other status exactly CMDERR, CNT_CMDERR and LASTERR. This holds of every transaction, those
included that stand for no instruction (R131, R432). -/
def Obligations.ErrorsChangeOnlyTheLog : Prop :=
  ∀ (s t : State) (r : Request) (rest : List Request) (st : Status) (res : Word),
    s.pending = r :: rest → step s = .next t → t.response = .cmd st res → st ≠ .ok →
      res = 0 ∧
      t = if st = .busy then { s with pending := rest, response := .cmd .busy 0 }
          else afterError { s with pending := rest } r.opcByte st

/-- Which statuses an instruction that decodes can end with (R431): a transaction that answers a status
is a CMD one, BUSY comes from MIXPUSH only, HAZARD from VOUT, KIND from PRD, BADID from PRD, PWR and
CCWR, and RANGE only from a command with a V field, a U field or a CC or note number. -/
def Obligations.StatusesOfEachCommand : Prop :=
  ∀ (i : Instr) (s t : State) (st : Status) (res : Word),
    exec i s = .next t → t.response = .cmd st res →
      i.port = .cmd ∧ st ≠ .illegal ∧
      (st = .busy → i = .mixpush) ∧
      (st = .hazard → ∃ v sig, i = .vout v sig) ∧
      (st = .kind → ∃ u id, i = .prd u id) ∧
      (st = .badId → (∃ u id, i = .prd u id) ∨ (∃ id x, i = .pwr id x) ∨ ∃ c x, i = .ccwr c x) ∧
      (st = .range → i.voiceField ≠ none ∨ i.unitField ≠ none ∨ (∃ n, i = .vmap n) ∨
        (∃ c x, i = .ccwr c x) ∨ ∃ c, i = .ccrd c)

/-- A V field at or above NV, or a legal V and a U field outside its class, ends the command with RANGE
and no other effect (R133, R134, R135). -/
def Obligations.VoiceOrUnitOutOfRangeAnswersRange : Prop :=
  ∀ (i : Instr) (s : State),
    (i.voiceOk s.cfg.nv = false ∨ (i.voiceOk s.cfg.nv = true ∧ i.unitOk = false)) →
      exec i s = .next (afterError s (encode i).opcByte .range)

/-- No transaction, RESET included, changes the configuration (R48, R472). -/
def Obligations.ConfigurationNeverChanges : Prop :=
  ∀ s t : State, step s = .next t → t.cfg = s.cfg

/-- The parameter registers are written only by PWR, by MIDI CC dispatch and by RESET (R118). -/
def Obligations.OnlyPwrCcAndResetWriteParameters : Prop :=
  ∀ (s t : State) (r : Request) (rest : List Request),
    s.pending = r :: rest → step s = .next t → t.params ≠ s.params →
      (∃ id x, decode r = .ok (.pwr id x)) ∨ (∃ ch b1 b2, decode r = .ok (.midiCc ch b1 b2)) ∨
        decode r = .ok .reset

/-- The feedback-owner and algorithm latch is written only by PAPPLY and by RESET (R41, R481). -/
def Obligations.OnlyPapplyAndResetWriteTheLatch : Prop :=
  ∀ (s t : State) (r : Request) (rest : List Request),
    s.pending = r :: rest → step s = .next t →
    (t.fbOwner ≠ s.fbOwner ∨ t.algActive ≠ s.algActive) →
      (∃ x, decode r = .ok (.papply x)) ∨ decode r = .ok .reset

/-- The reads with no side effect of R105, the FPU commands and NOP: when one ends OK, nothing but the
response has changed. -/
def Obligations.ReadsChangeNothing : Prop :=
  ∀ (i : Instr) (s t : State) (res : Word),
    ((∃ k id, i = .prd k id) ∨ (∃ id, i = .pkind id) ∨ (∃ v u, i = .oprd v u) ∨
      (∃ v u, i = .erdcur v u) ∨ (∃ v u, i = .erdst v u) ∨ (∃ v u, i = .erdcnt v u) ∨
      (∃ v u, i = .erdref v u) ∨ (∃ v, i = .vpitch v) ∨ (∃ v, i = .vcur v) ∨ (∃ v, i = .vslen v) ∨
      (∃ v x, i = .vstk v x) ∨ (∃ n, i = .vmap n) ∨ (∃ v, i = .mlvlrd v) ∨ (∃ v, i = .mvoutrd v) ∨
      i = .fifolvl ∨ (∃ c, i = .ccrd c) ∨ i = .paprd ∨ i = .strd ∨ (∃ u, i = .cntrd u) ∨
      i = .idrd ∨ (∃ u, i = .cfgrd u) ∨ (∃ a b, i = .fmul a b) ∨ (∃ a b, i = .fadd a b) ∨
      (∃ a b, i = .fsub a b) ∨ (∃ a k, i = .fshr a k) ∨ (∃ a, i = .fto16 a) ∨
      (∃ x y, i = .fxmix x y) ∨ i = .nop) →
    exec i s = .next t → t.response = .cmd .ok res → t = answered s res

/-! ## Fixed point -/

/-- FMUL answers the exact product divided by 65536, rounded toward minus infinity, and then reduced to
the 32-bit range; it changes nothing else (R170, R180). -/
def Obligations.FmulFloorsTheExactProduct : Prop :=
  ∀ (a b : Word) (s : State), ∃ r : Word,
    exec (.fmul a b) s = .next (answered s r) ∧
    r.toInt = Int.bmod (a.toInt * b.toInt / 65536) (2 ^ 32)

/-- `fmul(x, 0x10000) = x` for every x, and `fmul(a, b) = fmul(b, a)` (R170). -/
def Obligations.FmulByOneAndCommuted : Prop :=
  ∀ (a b : Word) (s : State),
    exec (.fmul a 0x10000) s = .next (answered s a) ∧
    exec (.fmul a b) s = exec (.fmul b a) s

/-- Products of values within full scale stay within full scale and are the exact floor: chains of them
never wrap (40_fixed_point.md section 1, a law the spec derives). -/
def Obligations.FmulStaysWithinFullScale : Prop :=
  ∀ (a b : Word) (s : State), a.toInt.natAbs ≤ 65536 → b.toInt.natAbs ≤ 65536 → ∃ r : Word,
    exec (.fmul a b) s = .next (answered s r) ∧
    r.toInt = a.toInt * b.toInt / 65536 ∧ r.toInt.natAbs ≤ 65536

/-- FADD and FSUB are the ring operations modulo 2^32; they change nothing else (R171, R172, R181,
R182). -/
def Obligations.FaddAndFsubWrap : Prop :=
  ∀ (a b : Word) (s : State),
    exec (.fadd a b) s = .next (answered s (a + b)) ∧
    exec (.fsub a b) s = .next (answered s (a - b))

/-- FSHR divides by 2^(opb mod 32), rounding toward minus infinity, with no wrap (R173, R183). -/
def Obligations.FshrFloorsThePowerOfTwo : Prop :=
  ∀ (a k : Word) (s : State), ∃ r : Word,
    exec (.fshr a k) s = .next (answered s r) ∧ r.toInt = a.toInt / 2 ^ (k.toNat % 32)

/-- FTO16 clips to [-65536, 65535], halves toward minus infinity and sign-extends; its result is an
int16 (R174, R184). -/
def Obligations.Fto16ClipsThenHalves : Prop :=
  ∀ (a : Word) (s : State), ∃ r : Word,
    exec (.fto16 a) s = .next (answered s r) ∧
    (65535 ≤ a.toInt → r.toInt = 32767) ∧
    (a.toInt ≤ -65536 → r.toInt = -32768) ∧
    (-65536 ≤ a.toInt → a.toInt ≤ 65535 → r.toInt = a.toInt / 2) ∧
    -32768 ≤ r.toInt ∧ r.toInt ≤ 32767

/-- FXMIX reads MIX, clamps it to [0, 1.0] and answers half the sum of the two products; a MIX at or
below 0 leaves x halved, at or above 1.0 leaves y halved (R175, R185). -/
def Obligations.FxmixClampsTheMix : Prop :=
  ∀ (x y : Word) (s : State), ∃ r : Word,
    exec (.fxmix x y) s = .next (answered s r) ∧
    (s.params.mix.toInt ≤ 0 → r.toInt = x.toInt / 2) ∧
    (65536 ≤ s.params.mix.toInt → r.toInt = y.toInt / 2) ∧
    (0 ≤ s.params.mix.toInt → s.params.mix.toInt ≤ 65536 →
      r.toInt = (fmul x (0x10000 - s.params.mix) + fmul y s.params.mix).toInt / 2)

/-! ## Operators -/

/-- OPROT: the phase moves by the integer part of the modulated frequency, a sum below 0 is clamped to
entry 0 and any other is reduced modulo SR; the feedback owner, with a FEEDBACK other than 0, makes a
second such move by the integer part of its sample times FEEDBACK; the answer is the table entry at the
phase kept, and only that phase is written (R200, R201, R204, R205, R206). -/
def Obligations.OprotMovesThePhaseAndReadsTheRom : Prop :=
  ∀ (s : State) (x : Voice) (v : Byte) (u : OpUnit) (freq pm : Word) (d : Int) (p : Nat),
    v.toNat < s.cfg.nv → s.voices[v.toNat]? = some x →
    d = (fmul freq (perOpGet s.params.ratio u) + pm).toInt / 65536 →
    p = (if ((perOpGet x.phase u : Nat) : Int) + d < 0 then 0
          else ((((perOpGet x.phase u : Nat) : Int) + d) % s.cfg.sr).toNat) →
    (¬ (s.fbOwner = ⟨true, u⟩ ∧ s.params.feedback ≠ 0) →
      exec (.oprot v (opByte u) freq pm) s = .next
        { s with
          voices := s.voices.set v.toNat { x with phase := perOpSet x.phase u p }
          response := .cmd .ok (sineAt s.cfg p) }) ∧
    ∀ (e : Int) (q : Nat),
      e = (fmul (sineAt s.cfg p) s.params.feedback).toInt / 65536 →
      q = (if (p : Int) + e < 0 then 0 else (((p : Int) + e) % s.cfg.sr).toNat) →
      s.fbOwner = ⟨true, u⟩ → s.params.feedback ≠ 0 →
        exec (.oprot v (opByte u) freq pm) s = .next
          { s with
            voices := s.voices.set v.toNat { x with phase := perOpSet x.phase u q }
            response := .cmd .ok (sineAt s.cfg q) }

/-- The entries of the nominal sine ROM at SR = 44100 that the spec lists, all 128 words of the nominal
note ROM in the rows of R341's table, and that a configured table replaces the nominal contents of both
ROMs (R202, R203, R341; the model computes the nominal sine by exact integers, assumption 5). -/
def Obligations.RomsHoldTheListedEntries : Prop :=
  (∀ row ∈ [(0, 0), (1, 9), (2, 19), (3, 28), (4, 37), (5, 47), (11, 103), (100, 934), (220, 2054),
      (240, 2241), (440, 4106), (441, 4115), (880, 8195), (1000, 9306), (1323, 12280), (2205, 20252),
      (4400, 38446), (4410, 38521), (4419, 38589), (7350, 56756), (11025, 65536), (11041, 65536),
      (22049, 9), (22050, 0), (22051, -9), (32667, -65425), (33074, -65536), (33075, -65536),
      (36750, -56756), ((44099, -9) : Nat × Int)],
    (sineAt Config.default row.1).toInt = row.2) ∧
  (∀ n : Data7,
     ([0x00082D01, 0x0008A976, 0x00092D51, 0x0009B904, 0x000A4D05, 0x000AE9D3, 0x000B8FF5, 0x000C3FF7] ++
      [0x000CFA70, 0x000DC000, 0x000E914F, 0x000F6F11, 0x00105A02, 0x001152EC, 0x00125AA3, 0x00137208] ++
      [0x00149A0A, 0x0015D3A7, 0x00171FE9, 0x00187FED, 0x0019F4E0, 0x001B8000, 0x001D229F, 0x001EDE22] ++
      [0x0020B405, 0x0022A5D8, 0x0024B546, 0x0026E410, 0x00293415, 0x002BA74E, 0x002E3FD2, 0x0030FFDB] ++
      [0x0033E9C0, 0x00370000, 0x003A453E, 0x003DBC44, 0x00416809, 0x00454BB0, 0x00496A8C, 0x004DC821] ++
      [0x0052682A, 0x00574E9B, 0x005C7FA5, 0x0061FFB5, 0x0067D380, 0x006E0000, 0x00748A7B, 0x007B7888] ++
      [0x0082D013, 0x008A9760, 0x0092D517, 0x009B9041, 0x00A4D054, 0x00AE9D37, 0x00B8FF49, 0x00C3FF6A] ++
      [0x00CFA700, 0x00DC0000, 0x00E914F6, 0x00F6F110, 0x0105A025, 0x01152EC1, 0x0125AA2E, 0x01372082] ++
      [0x0149A0A8, 0x015D3A6D, 0x0171FE92, 0x0187FED5, 0x019F4E01, 0x01B80000, 0x01D229EC, 0x01EDE220] ++
      [0x020B404A, 0x022A5D82, 0x024B545C, 0x026E4104, 0x0293414F, 0x02BA74DB, 0x02E3FD25, 0x030FFDAA] ++
      [0x033E9C01, 0x03700000, 0x03A453D9, 0x03DBC440, 0x04168094, 0x0454BB04, 0x0496A8B9, 0x04DC8208] ++
      [0x0526829E, 0x0574E9B6, 0x05C7FA4A, 0x061FFB54, 0x067D3803, 0x06E00000, 0x0748A7B1, 0x07B78880] ++
      [0x082D0128, 0x08A97607, 0x092D5172, 0x09B90410, 0x0A4D053D, 0x0AE9D36B, 0x0B8FF494, 0x0C3FF6A7] ++
      [0x0CFA7005, 0x0DC00000, 0x0E914F62, 0x0F6F1100, 0x105A0251, 0x1152EC0E, 0x125AA2E4, 0x13720820] ++
      [0x149A0A79, 0x15D3A6D6, 0x171FE928, 0x187FED4E, 0x19F4E00B, 0x1B800000, 0x1D229EC4, 0x1EDE2200] ++
      [0x20B404A2, 0x22A5D81D, 0x24B545C7, 0x26E41040, 0x293414F2, 0x2BA74DAC, 0x2E3FD250, 0x30FFDA9D] :
        List Word)[n.val]? = some (noteAt Config.default n)) ∧
  ∀ (c : Config) (t : List Word) (i : Nat) (n : Data7) (x : Word),
    (c.sineRom = some t → t[i]? = some x → sineAt c i = x) ∧
    (c.noteRom = some t → t[n.val]? = some x → noteAt c n = x)

/-- With ratio 1.0, no modulation, no feedback and a frequency of at least 0, OPROT advances the phase
by the integer part of the frequency, modulo SR (41_operator.md section 4, a property the spec
derives). -/
def Obligations.OprotPitchIsTheIntegerFrequency : Prop :=
  ∀ (s : State) (x : Voice) (v : Byte) (u : OpUnit) (freq : Word),
    v.toNat < s.cfg.nv → s.voices[v.toNat]? = some x →
    perOpGet s.params.ratio u = 0x10000 → s.fbOwner.en = false → 0 ≤ freq.toInt →
      ∃ t, exec (.oprot v (opByte u) freq 0) s = .next t ∧
        t.voices = s.voices.set v.toNat
          { x with
            phase := perOpSet x.phase u ((perOpGet x.phase u + freq.toNat / 65536) % s.cfg.sr) }

/-- OPRD answers the phase and changes nothing; OPWR sets it to any value below SR and changes nothing
else, and answers RANGE at SR or above (R207, R208). -/
def Obligations.OprdAndOpwrReachThePhase : Prop :=
  ∀ (s : State) (x : Voice) (v : Byte) (u : OpUnit) (w : Word),
    v.toNat < s.cfg.nv → s.voices[v.toNat]? = some x →
    exec (.oprd v (opByte u)) s =
      .next (answered s (BitVec.ofNat 32 (perOpGet x.phase u))) ∧
    (w.toNat < s.cfg.sr →
      exec (.opwr v (opByte u) w) s = .next
        { s with
          voices := s.voices.set v.toNat { x with phase := perOpSet x.phase u w.toNat }
          response := .cmd .ok 0 }) ∧
    (s.cfg.sr ≤ w.toNat →
      exec (.opwr v (opByte u) w) s = .next (afterError s 0x12 .range))

/-! ## Envelopes -/

/-- Trigger, Retrigger and Release. ETRIG: an ADE starts its attack with gain and counter 0; the VCA
starts its attack with counter 0, keeps its gain and captures it in ref. ERETRIG acts as ETRIG when the
envelope's RETRIGGER register is 1 and has no effect otherwise. EREL starts the release of the VCA from
its gain, starts the decay of a gated ADE keeping its gain, and has no effect on an ungated ADE (R232,
R240, R250, R251, R252). -/
def Obligations.TriggerRetriggerAndRelease : Prop :=
  ∀ (s : State) (x : Voice) (v : Byte) (e : AdeUnit),
    v.toNat < s.cfg.nv → s.voices[v.toNat]? = some x →
    exec (.etrig v (adeByte e)) s = .next
      { s with
        voices := s.voices.set v.toNat (voiceSetAde x e ⟨.attack, 0, 0⟩)
        response := .cmd .ok 0 } ∧
    exec (.etrig v 2) s = .next
      { s with
        voices := s.voices.set v.toNat { x with vca := ⟨.attack, x.vca.cur, 0, x.vca.cur⟩ }
        response := .cmd .ok 0 } ∧
    exec (.eretrig v (adeByte e)) s =
      (if (adeParams s.params e).retrigger then exec (.etrig v (adeByte e)) s
        else .next (answered s 0)) ∧
    exec (.eretrig v 2) s =
      (if s.params.vca.retrigger then exec (.etrig v 2) s else .next (answered s 0)) ∧
    exec (.erel v 2) s = .next
      { s with
        voices := s.voices.set v.toNat { x with vca := ⟨.release, x.vca.cur, 0, x.vca.cur⟩ }
        response := .cmd .ok 0 } ∧
    exec (.erel v (adeByte e)) s =
      (if (adeParams s.params e).gated then .next
        { s with
          voices := s.voices.set v.toNat (voiceSetAde x e ⟨.decay, (voiceAde x e).cur, 0⟩)
          response := .cmd .ok 0 }
        else .next (answered s 0))

/-- ESCALE on an ADE, by exact integers: `n` counts and saturates, ATTACK reaches 1.0 when `n << SH` is
at least 1.0 times ATTACK, DECAY ends when the ramp is at or below ENDLEVEL, each state change zeroes
`n`, and no gain wraps; the answer is the signal times the new gain (R231, R233). -/
def Obligations.EscaleStepsAnAde : Prop :=
  ∀ (s : State) (x : Voice) (v : Byte) (e : AdeUnit) (sig : Word) (o : Ade) (p : AdeParams) (n : Nat),
    v.toNat < s.cfg.nv → s.voices[v.toNat]? = some x →
    o = voiceAde x e → p = adeParams s.params e → n = satSucc o.n →
    ∃ a : Ade,
      exec (.escale v (adeByte e) sig) s = .next
        { s with
          voices := s.voices.set v.toNat (voiceSetAde x e a)
          response := .cmd .ok (fmul sig a.cur) } ∧
      match o.state with
      | .attack =>
        if 65536 * max p.attack.toNat 1 ≤ n * 2 ^ s.cfg.adeShift then
          a.state = (if p.gated then .sustain else .decay) ∧ a.cur.toInt = 65536 ∧ a.n = 0
        else
          a.state = .attack ∧ a.n.toNat = n ∧
            a.cur.toInt = n * 2 ^ s.cfg.adeShift / max p.attack.toNat 1
      | .sustain => a.state = .sustain ∧ a.cur.toInt = 65536 ∧ a.n.toNat = n
      | .decay =>
        if 65536 - (n * 2 ^ s.cfg.adeShift / max p.decay.toNat 1 : Int) ≤ p.endLevel.toInt then
          a.state = .complete ∧ a.cur = p.endLevel ∧ a.n = 0
        else
          a.state = .decay ∧ a.n.toNat = n ∧
            a.cur.toInt = 65536 - (n * 2 ^ s.cfg.adeShift / max p.decay.toNat 1 : Int)
      | .complete => a.state = .complete ∧ a.cur = o.cur ∧ a.n.toNat = n

/-- ESCALE on the VCA, by exact integers: ATTACK lasts A samples and is the ramp from 0 held up at ref,
DECAY is a straight line to SUSTAIN over D samples, RELEASE a straight line from ref to 0 over R
samples, SUSTAIN and COMPLETE hold SUSTAIN and 0; no gain wraps and ref never changes (R231, R241). -/
def Obligations.EscaleStepsTheVca : Prop :=
  ∀ (s : State) (x : Voice) (v : Byte) (sig : Word) (o : Adsr) (p : VcaParams) (n : Nat),
    v.toNat < s.cfg.nv → s.voices[v.toNat]? = some x →
    o = x.vca → p = s.params.vca → n = satSucc o.n →
    ∃ a : Adsr,
      exec (.escale v 2 sig) s = .next
        { s with
          voices := s.voices.set v.toNat { x with vca := a }
          response := .cmd .ok (fmul sig a.cur) } ∧
      a.ref = o.ref ∧
      match o.state with
      | .attack =>
        if max p.attack.toNat 1 ≤ n then a.state = .decay ∧ a.cur.toInt = 65536 ∧ a.n = 0
        else
          a.state = .attack ∧ a.n.toNat = n ∧
            a.cur.toInt = max o.ref.toInt (n * 65536 / max p.attack.toNat 1)
      | .decay =>
        if max p.decay.toNat 1 ≤ n then a.state = .sustain ∧ a.cur = p.sustain ∧ a.n = 0
        else
          a.state = .decay ∧ a.n.toNat = n ∧
            a.cur.toInt = 65536 -
              Int.tdiv ((65536 - p.sustain.toInt) * n) (max p.decay.toNat 1 : Nat)
      | .sustain => a.state = .sustain ∧ a.cur = p.sustain ∧ a.n.toNat = n
      | .release =>
        if max p.release.toNat 1 ≤ n then a.state = .complete ∧ a.cur = 0 ∧ a.n = 0
        else
          a.state = .release ∧ a.n.toNat = n ∧
            a.cur.toInt = o.ref.toInt - Int.tdiv (o.ref.toInt * n) (max p.release.toNat 1 : Nat)
      | .complete => a.state = .complete ∧ a.cur = 0 ∧ a.n.toNat = n

/-- EIDX is ESCALE of the ADE's own INDEX register: the same state and the same answer (R234, R254). -/
def Obligations.EidxScalesTheIndexRegister : Prop :=
  ∀ (s : State) (v : Byte) (e : AdeUnit), v.toNat < s.cfg.nv →
    ∃ t, exec (.eidx v (adeByte e)) s = .next t ∧
      exec (.escale v (adeByte e) (adeParams s.params e).index) s = .next t

/-- ERDCUR, ERDST, ERDCNT and ERDREF answer the gain, the state code, the counter and the captured
level, and change nothing; an ADE never reads code 4 (R35, R262, R263, R264, R265). -/
def Obligations.EnvelopeReadsAnswerTheRegisters : Prop :=
  ∀ (s : State) (x : Voice) (v : Byte) (e : AdeUnit),
    v.toNat < s.cfg.nv → s.voices[v.toNat]? = some x →
    exec (.erdcur v (adeByte e)) s = .next (answered s (voiceAde x e).cur) ∧
    exec (.erdcur v 2) s = .next (answered s x.vca.cur) ∧
    exec (.erdst v (adeByte e)) s = .next (answered s
      (match (voiceAde x e).state with
        | .complete => 0 | .attack => 1 | .decay => 2 | .sustain => 3)) ∧
    exec (.erdst v 2) s = .next (answered s
      (match x.vca.state with
        | .complete => 0 | .attack => 1 | .decay => 2 | .sustain => 3 | .release => 4)) ∧
    exec (.erdcnt v (adeByte e)) s = .next (answered s (voiceAde x e).n) ∧
    exec (.erdcnt v 2) s = .next (answered s x.vca.n) ∧
    exec (.erdref v 2) s = .next (answered s x.vca.ref)

/-- With constant parameters the VCA's attack takes exactly A samples, its decay exactly D and its
release exactly R, with the gains of the three ramps on the way and SUSTAIN held after the decay
(42_envelope.md section 3, a course the spec derives). -/
def Obligations.AdsrCourseTakesItsSampleCounts : Prop :=
  ∀ (p : VcaParams) (o : Adsr) (k : Nat), o.n = 0 →
    (o.state = .attack → 1 ≤ k → k < max p.attack.toNat 1 →
      ((adsrAdvance p)^[k] o).state = .attack ∧
      ((adsrAdvance p)^[k] o).cur.toInt = max o.ref.toInt (k * 65536 / max p.attack.toNat 1)) ∧
    (o.state = .attack → (adsrAdvance p)^[max p.attack.toNat 1] o = ⟨.decay, 0x10000, 0, o.ref⟩) ∧
    (o.state = .decay → 1 ≤ k → k < max p.decay.toNat 1 →
      ((adsrAdvance p)^[k] o).state = .decay ∧
      ((adsrAdvance p)^[k] o).cur.toInt =
        65536 - Int.tdiv ((65536 - p.sustain.toInt) * k) (max p.decay.toNat 1 : Nat)) ∧
    (o.state = .decay →
      (adsrAdvance p)^[max p.decay.toNat 1] o = ⟨.sustain, p.sustain, 0, o.ref⟩) ∧
    (o.state = .sustain → 1 ≤ k → ((adsrAdvance p)^[k] o).cur = p.sustain) ∧
    (o.state = .release → 1 ≤ k → k < max p.release.toNat 1 →
      ((adsrAdvance p)^[k] o).state = .release ∧
      ((adsrAdvance p)^[k] o).cur.toInt =
        o.ref.toInt - Int.tdiv (o.ref.toInt * k) (max p.release.toNat 1 : Nat)) ∧
    (o.state = .release →
      (adsrAdvance p)^[max p.release.toNat 1] o = ⟨.complete, 0, 0, o.ref⟩) ∧
    (o.state = .complete → 1 ≤ k → ((adsrAdvance p)^[k] o).cur = 0)

/-- The anti-click property: triggered in any state, the VCA's attack never produces a gain below the
one it had, as long as that gain is at most 1.0, and its gains never fall from one sample to the next
(42_envelope.md section 3, properties the spec derives). -/
def Obligations.AdsrRetriggerNeverClicksDown : Prop :=
  ∀ (p : VcaParams) (o : Adsr) (k : Nat), o.cur.toInt ≤ 65536 → k < max p.attack.toNat 1 →
    o.cur.toInt ≤ ((adsrAdvance p)^[k] (adsrTrigger o)).cur.toInt ∧
    ((adsrAdvance p)^[k] (adsrTrigger o)).cur.toInt ≤
      ((adsrAdvance p)^[k + 1] (adsrTrigger o)).cur.toInt

/-! ## Patch -/

/-- The parameter space of R282: the id, kind code and default reset value of each of the 24 registers.
PKIND answers the kind code of exactly these ids and 0 for any other operand; after reset PRD with ANY
answers the reset value of exactly these ids, and BADID for any other operand (R282, R284, R295). -/
def Obligations.ParameterSpaceIsTheTable : Prop :=
  let table : List (Nat × Nat × Nat) :=
    [(0x00, 1, 0), (0x01, 4, 0), (0x02, 4, 0x8000),
     (0x10, 4, 0x10000), (0x50, 4, 0x10000), (0x90, 4, 0x10000), (0xD0, 4, 0x10000),
     (0x20, 3, 1), (0x21, 3, 64), (0x24, 4, 0x4000), (0x25, 4, 0x10000), (0x26, 2, 0), (0x27, 2, 0),
     (0x60, 3, 1), (0x61, 3, 64), (0x64, 4, 0x4000), (0x65, 4, 0x10000), (0x66, 2, 0), (0x67, 2, 0),
     (0xA0, 3, 441), (0xA1, 3, 4410), (0xA2, 4, 0xC000), (0xA3, 3, 4410), (0xA7, 2, 0)]
  (∀ row ∈ table, ∀ w : Word, w.toNat = row.1 →
    (∀ s : State, exec (.pkind w) s = .next (answered s (BitVec.ofNat 32 row.2.1))) ∧
    exec (.prd 0 w) State.reset = .next (answered State.reset (BitVec.ofNat 32 row.2.2))) ∧
  ∀ w : Word, (∀ row ∈ table, w.toNat ≠ row.1) → ∀ s : State,
    exec (.pkind w) s = .next (answered s 0) ∧
    exec (.prd 0 w) s = .next (afterError s 0x50 .badId)

/-- PRD answers the register's value when U is ANY or the register's kind, KIND for another kind, and
BADID for an operand that names no register, whatever U (R285, R291). -/
def Obligations.PrdChecksIdThenKind : Prop :=
  ∀ (s : State) (u : Byte) (w : Word), u.toNat ≤ 4 →
    (pidOfWord w = none → exec (.prd u w) s = .next (afterError s 0x50 .badId)) ∧
    ∀ p : Pid, pidOfWord w = some p →
      exec (.prd u w) s =
        if u = 0 ∨ u.toNat = kindCode (pidKind p) then .next (answered s (paramRead s.params p))
        else .next (afterError s 0x50 .kind)

/-- PWR stores the bits of the register's kind and leaves every other register, then offers the id to
the notification queue, where a full queue drops it, sets NOTIFY_OVF and counts; nothing else changes.
An operand that names no register gives BADID (R286, R287, R290, R292). -/
def Obligations.PwrStoresMaskedAndNotifies : Prop :=
  ∀ (s : State) (id x : Word),
    (pidOfWord id = none → exec (.pwr id x) s = .next (afterError s 0x51 .badId)) ∧
    ∀ p : Pid, pidOfWord id = some p → ∃ ps nq log,
      exec (.pwr id x) s =
        .next { s with params := ps, nq := nq, log := log, response := .cmd .ok 0 } ∧
      (paramRead ps p).toNat =
        (match pidKind p with
          | .byte => x.toNat % 2 ^ 8
          | .bool => x.toNat % 2
          | .u16 => x.toNat % 2 ^ 16
          | .fp32 => x.toNat) ∧
      (∀ q : Pid, q ≠ p → paramRead ps q = paramRead s.params q) ∧
      (s.nq.length < s.cfg.notifyDepth → nq = s.nq ++ [p] ∧ log = s.log) ∧
      (s.cfg.notifyDepth ≤ s.nq.length → nq = s.nq ∧
        log = { s.log with
          notifyOvf := true
          cntNotifyDrop := BitVec.ofNat 32 (satSucc s.log.cntNotifyDrop) })

/-- CCWR with bit 8 set binds the CC number to the register and unbinds every other CC number bound to
it; with bit 8 clear it unbinds the CC number; CCRD answers `valid << 8 | id`. A CC number above 127 is
RANGE, before BADID for an id with no register (R293, R294). -/
def Obligations.CcwrBindsOneCcPerRegister : Prop :=
  ∀ (s : State) (cc x : Word),
    (128 ≤ cc.toNat →
      exec (.ccwr cc x) s = .next (afterError s 0x53 .range) ∧
      exec (.ccrd cc) s = .next (afterError s 0x54 .range)) ∧
    (cc.toNat < 128 → x.getLsbD 8 = true → pidOfWord (x &&& 0xFF) = none →
      exec (.ccwr cc x) s = .next (afterError s 0x53 .badId)) ∧
    (cc.toNat < 128 → s.ccMap.length = 128 → ∃ m : List (Option Pid),
      (∀ p, x.getLsbD 8 = true → pidOfWord (x &&& 0xFF) = some p →
        exec (.ccwr cc x) s = .next { s with ccMap := m, response := .cmd .ok 0 } ∧
        ∀ c < 128, m[c]? = some (if c = cc.toNat then some p
          else if s.ccMap[c]? = some (some p) then none else (s.ccMap[c]?).getD none)) ∧
      (x.getLsbD 8 = false →
        exec (.ccwr cc x) s =
          .next { s with ccMap := s.ccMap.set cc.toNat none, response := .cmd .ok 0 }) ∧
      ∀ e, s.ccMap[cc.toNat]? = some e →
        exec (.ccrd cc) s = .next (answered s
          (match e with
            | some p => BitVec.ofNat 32 (256 + (pidId p).toNat)
            | none => 0)))

/-- A control change of an unbound CC number records diagnostic cause 2 and changes nothing else; of a
bound one it has the effect of a PWR of the converted value (BOOL: val >= 64; U16: val << 9; FP32:
(val - 64) * 256; BYTE: val), but answers nothing. Both data bytes are clamped to 127 (R140, R288, R296,
R331). -/
def Obligations.MidiCcWritesTheConvertedValue : Prop :=
  ∀ (s : State) (ch : BitVec 4) (b1 b2 : Byte) (c : Data7) (val : Nat),
    c.val = min b1.toNat 127 → val = min b2.toNat 127 →
    (ccBinding s c = none →
      exec (.midiCc ch b1 b2) s = .next (afterDiag s 2 (0xB#4 ++ ch) c.val)) ∧
    ∀ p : Pid, ccBinding s c = some p → ∀ w : Word,
      (match pidKind p with
        | .bool => w.toNat = if 64 ≤ val then 1 else 0
        | .u16 => w.toNat = val * 512
        | .fp32 => w.toInt = ((val : Int) - 64) * 256
        | .byte => w.toNat = val) →
      ∃ t, exec (.pwr ((pidId p).setWidth 32) w) s = .next t ∧
        exec (.midiCc ch b1 b2) s = .next { t with response := .none }

/-- NPOP takes the oldest notification and answers `0x100 | id`; an empty queue answers 0, with no
error (R297). -/
def Obligations.NpopTakesTheOldestNotification : Prop :=
  ∀ (s : State) (p : Pid) (rest : List Pid),
    (s.nq = [] → exec .npop s = .next (answered s 0)) ∧
    (s.nq = p :: rest →
      exec .npop s = .next
        { s with nq := rest, response := .cmd .ok (BitVec.ofNat 32 (256 + (pidId p).toNat)) })

/-- PAPPLY latches the owner of `opa[2:0]` and the ALGORITHM register and changes nothing else, and
PAPRD answers `ALG << 8 | en << 2 | op` of the latch (R299, R300). -/
def Obligations.PapplyLatchesWhatPaprdReads : Prop :=
  ∀ (s : State) (w : Word), ∃ f : FbOwner,
    exec (.papply w) s = .next
      { s with fbOwner := f, algActive := s.params.algorithm, response := .cmd .ok 0 } ∧
    f.en = decide (4 ≤ w.toNat % 8) ∧ (opByte f.op).toNat = w.toNat % 4 ∧
    ∃ r : Word, exec .paprd s = .next (answered s r) ∧
      r.toNat = s.algActive.toNat * 256 + (if s.fbOwner.en then 4 else 0) +
        (opByte s.fbOwner.op).toNat

/-! ## Voices and MIDI -/

/-- The allocator answers a voice of the instance: the lowest-index idle one if there is an idle voice,
else the lowest-index one of those nearest to the note (R351). -/
def Obligations.AllocatorPrefersIdleThenNearest : Prop :=
  ∀ (s : State) (n : Data7), 1 ≤ s.cfg.nv →
    allocate s n < s.cfg.nv ∧
    ((∃ v < s.cfg.nv, curNote (voice s v) = 0) →
      curNote (voice s (allocate s n)) = 0 ∧
      ∀ v < allocate s n, curNote (voice s v) ≠ 0) ∧
    ((∀ v < s.cfg.nv, curNote (voice s v) ≠ 0) →
      ∀ v < s.cfg.nv,
        ((curNote (voice s (allocate s n)) : Int) - n.val).natAbs ≤
          ((curNote (voice s v) : Int) - n.val).natAbs ∧
        (v < allocate s n →
          ((curNote (voice s (allocate s n)) : Int) - n.val).natAbs <
            ((curNote (voice s v) : Int) - n.val).natAbs))

/-- A NoteOn gives the note to the allocated voice: the map names it, the note goes on top of its stack
unless it is there already, its pitch becomes that of the note, and its envelopes are triggered if the
note is then the only one, else retriggered by their flags; there is no response and nothing else
changes (R331, R343, R345, R350). -/
def Obligations.NoteOnPlaysOnTheAllocatedVoice : Prop :=
  ∀ (s : State) (x : Voice) (ch : BitVec 4) (b1 b2 : Byte) (n : Data7) (st : List Data7),
    n.val = min b1.toNat 127 → (s.cfg.vel0IsNoteOff = true → b2 ≠ 0) →
    s.voices[allocate s n]? = some x →
    st = (if n ∈ x.stack then x.stack else x.stack ++ [n]) →
    exec (.midiNoteOn ch b1 b2) s = .next
      { s with
        response := .none
        noteMap := s.noteMap.set n.val (some (BitVec.ofNat 8 (allocate s n)))
        voices := s.voices.set (allocate s n)
          (if st.length = 1 then
            { x with
              stack := st
              pitch := noteAt s.cfg n
              envA := ⟨.attack, 0, 0⟩
              envB := ⟨.attack, 0, 0⟩
              vca := ⟨.attack, x.vca.cur, 0, x.vca.cur⟩ }
          else
            { x with
              stack := st
              pitch := noteAt s.cfg n
              envA := if s.params.envA.retrigger then ⟨.attack, 0, 0⟩ else x.envA
              envB := if s.params.envB.retrigger then ⟨.attack, 0, 0⟩ else x.envB
              vca := if s.params.vca.retrigger then ⟨.attack, x.vca.cur, 0, x.vca.cur⟩
                else x.vca }) }

/-- A NoteOff of a note with an owner clears its map entry and removes it from the owner's stack, the
others keeping their order; with notes left the voice retriggers to the top one and takes its pitch,
with none left its envelopes are released and the pitch is kept (R331, R343, R346, R352). -/
def Obligations.NoteOffReleasesTheOwner : Prop :=
  ∀ (s : State) (x : Voice) (ch : BitVec 4) (b1 b2 v : Byte) (n : Data7) (st : List Data7),
    n.val = min b1.toNat 127 → s.noteMap[n.val]? = some (some v) →
    s.voices[v.toNat]? = some x → st = x.stack.filter (fun m => decide (m ≠ n)) →
    exec (.midiNoteOff ch b1 b2) s = .next
      { s with
        response := .none
        noteMap := s.noteMap.set n.val none
        voices := s.voices.set v.toNat
          (match st.getLast? with
            | some top =>
              { x with
                stack := st
                pitch := noteAt s.cfg top
                envA := if s.params.envA.retrigger then ⟨.attack, 0, 0⟩ else x.envA
                envB := if s.params.envB.retrigger then ⟨.attack, 0, 0⟩ else x.envB
                vca := if s.params.vca.retrigger then ⟨.attack, x.vca.cur, 0, x.vca.cur⟩
                  else x.vca }
            | none =>
              { x with
                stack := st
                envA := if s.params.envA.gated then ⟨.decay, x.envA.cur, 0⟩ else x.envA
                envB := if s.params.envB.gated then ⟨.decay, x.envB.cur, 0⟩ else x.envB
                vca := ⟨.release, x.vca.cur, 0, x.vca.cur⟩ }) }

/-- A NoteOff of a note without an owner records diagnostic cause 3 and changes nothing else, and so does
a NoteOn of velocity 0 under VEL0_IS_NOTEOFF; a message with another status nibble records cause 1. The
record keeps the status byte as it came (R332, R333, R352, R434, R435). -/
def Obligations.IgnoredMidiRecordsADiagnostic : Prop :=
  ∀ (s : State) (ch : BitVec 4) (b0 b1 b2 : Byte) (n : Data7), n.val = min b1.toNat 127 →
    (noteOwner s n = none →
      exec (.midiNoteOff ch b1 b2) s = .next (afterDiag s 3 (0x8#4 ++ ch) n.val) ∧
      (s.cfg.vel0IsNoteOff = true →
        exec (.midiNoteOn ch b1 0) s = .next (afterDiag s 3 (0x9#4 ++ ch) n.val))) ∧
    exec (.midiOther b0 b1 b2) s = .next (afterDiag s 1 b0 n.val)

/-- NoteOn velocity is ignored, 0 included, unless VEL0_IS_NOTEOFF is true; then a velocity of 0 makes
the message a NoteOff of the same note, which differs from one only in the status byte a diagnostic
records. NoteOff velocity is always ignored, the default of VEL0_IS_NOTEOFF is false, and a data byte
above 127 acts as 127 (R331, R332). -/
def Obligations.VelocityIsIgnored : Prop :=
  Config.default.vel0IsNoteOff = false ∧
  ∀ (s : State) (ch : BitVec 4) (b1 b2 b2' : Byte),
    ((s.cfg.vel0IsNoteOff = true → b2 ≠ 0 ∧ b2' ≠ 0) →
      exec (.midiNoteOn ch b1 b2) s = exec (.midiNoteOn ch b1 b2') s) ∧
    (s.cfg.vel0IsNoteOff = true →
      exec (.midiNoteOn ch b1 0) s =
        if noteOwner s (clampData b1) = none then
          .next (afterDiag s 3 (0x9#4 ++ ch) (min b1.toNat 127))
        else exec (.midiNoteOff ch b1 b2) s) ∧
    exec (.midiNoteOff ch b1 b2) s = exec (.midiNoteOff ch b1 b2') s ∧
    (127 ≤ b1.toNat →
      exec (.midiNoteOn ch b1 b2) s = exec (.midiNoteOn ch 127 b2) s ∧
      exec (.midiNoteOff ch b1 b2) s = exec (.midiNoteOff ch 127 b2) s)

/-- VPITCH, VCUR, VSLEN, VSTK and VMAP answer the pitch, the top of the stack or 0, the stack's length,
a stack entry (oldest first) and a map entry, and change nothing; an index at or above the stack's length
and a note above 127 are RANGE (R342, R360, R361, R362, R363, R364). -/
def Obligations.VoiceReadsAnswerTheRegisters : Prop :=
  ∀ (s : State) (x : Voice) (v : Byte) (w : Word),
    v.toNat < s.cfg.nv → s.voices[v.toNat]? = some x →
    exec (.vpitch v) s = .next (answered s x.pitch) ∧
    (x.stack = [] → exec (.vcur v) s = .next (answered s 0)) ∧
    (∀ low top, x.stack = low ++ [top] →
      exec (.vcur v) s = .next (answered s (BitVec.ofNat 32 top.val))) ∧
    exec (.vslen v) s = .next (answered s (BitVec.ofNat 32 x.stack.length)) ∧
    (∀ n, x.stack[w.toNat]? = some n →
      exec (.vstk v w) s = .next (answered s (BitVec.ofNat 32 n.val))) ∧
    (x.stack.length ≤ w.toNat → exec (.vstk v w) s = .next (afterError s 0x34 .range)) ∧
    (w.toNat < 128 → s.noteMap[w.toNat]? = some none →
      exec (.vmap w) s = .next (answered s 0)) ∧
    (∀ o : Byte, w.toNat < 128 → s.noteMap[w.toNat]? = some (some o) →
      exec (.vmap w) s = .next (answered s (BitVec.ofNat 32 (256 + o.toNat)))) ∧
    (128 ≤ w.toNat → exec (.vmap w) s = .next (afterError s 0x35 .range))

/-! ## Mixer and output -/

/-- VOUT of a voice not yet rendered in this sample period advances its VCA as ESCALE does, latches the
scaled sample, marks the voice rendered and answers the sample; of a rendered voice it is HAZARD and
changes nothing (R380). -/
def Obligations.VoutLatchesOncePerSample : Prop :=
  ∀ (s : State) (x : Voice) (v : Byte) (sig : Word),
    v.toNat < s.cfg.nv → s.voices[v.toNat]? = some x →
    (x.rendered = true → exec (.vout v sig) s = .next (afterError s 0x30 .hazard)) ∧
    (x.rendered = false → ∃ (a : Adsr) (y : Word),
      exec (.escale v 2 sig) s = .next
        { s with
          voices := s.voices.set v.toNat { x with vca := a }
          response := .cmd .ok y } ∧
      exec (.vout v sig) s = .next
        { s with
          voices := s.voices.set v.toNat { x with vca := a, vout := y, rendered := true }
          response := .cmd .ok y })

/-- MIXPUSH appends to the FIFO the sum over the channels of (VOUT times LEVEL) times floor(65536 / NV),
answers it and clears every RENDERED bit; with the FIFO full it answers BUSY and changes nothing, the log
included (R381, R382, R384, R432). -/
def Obligations.MixpushPushesTheAttenuatedSum : Prop :=
  ∀ s : State, s.voices.length = s.cfg.nv → 1 ≤ s.cfg.nv →
    (s.fifo.length = s.cfg.fifoDepth →
      exec .mixpush s = .next { s with response := .cmd .busy 0 }) ∧
    (s.fifo.length ≠ s.cfg.fifoDepth → ∃ r : Word,
      r = (s.voices.map (fun x =>
        fmul (fmul x.vout x.level) (BitVec.ofNat 32 (65536 / s.cfg.nv)))).sum ∧
      exec .mixpush s = .next
        { s with
          fifo := s.fifo ++ [r]
          voices := s.voices.map (fun x => { x with rendered := false })
          response := .cmd .ok r })

/-- Headroom: with every channel's sample and level within [-1.0, 1.0] the mixed sample is within
[-1.0, 1.0] and is the exact sum, with no wrap (45_mixer_output.md section 2, a bound the spec
derives). -/
def Obligations.MixHasHeadroom : Prop :=
  ∀ s : State, s.voices.length = s.cfg.nv → 1 ≤ s.cfg.nv → s.fifo.length ≠ s.cfg.fifoDepth →
    (∀ x ∈ s.voices, x.vout.toInt.natAbs ≤ 65536 ∧ x.level.toInt.natAbs ≤ 65536) →
    ∃ (t : State) (r : Word), exec .mixpush s = .next t ∧ t.response = .cmd .ok r ∧
      r.toInt.natAbs ≤ 65536 ∧
      r.toInt = (s.voices.map (fun x =>
        (x.vout.toInt * x.level.toInt / 65536) * ((65536 / s.cfg.nv : Nat) : Int) / 65536)).sum

/-- MLVLWR sets a channel's level and nothing else; MLVLRD and MVOUTRD answer the level and the latched
sample, FIFOLVL the number of samples queued, and they change nothing (R385, R386, R387, R388). -/
def Obligations.MixerRegistersReadAndWrite : Prop :=
  ∀ (s : State) (x : Voice) (v : Byte) (w : Word),
    v.toNat < s.cfg.nv → s.voices[v.toNat]? = some x →
    exec (.mlvlwr v w) s = .next
      { s with
        voices := s.voices.set v.toNat { x with level := w }
        response := .cmd .ok 0 } ∧
    exec (.mlvlrd v) s = .next (answered s x.level) ∧
    exec (.mvoutrd v) s = .next (answered s x.vout) ∧
    exec .fifolvl s = .next (answered s (BitVec.ofNat 32 s.fifo.length))

/-- POP takes the oldest sample, clips and halves it to an int16, and reports no underrun; on an empty
FIFO it answers silence with the underrun bit, sets UNDERRUN and counts, and changes nothing else (R174,
R390, R391). -/
def Obligations.PopTakesTheOldestSample : Prop :=
  ∀ (s : State) (h : Word) (rest : List Word),
    (s.fifo = h :: rest → ∃ y : BitVec 16,
      exec .pop s = .next { s with fifo := rest, response := .audio y false } ∧
      y.toInt = max (-65536) (min h.toInt 65535) / 2) ∧
    (s.fifo = [] →
      exec .pop s = .next
        { s with
          response := .audio 0 true
          log := { s.log with
            underrun := true
            cntUnderrun := BitVec.ofNat 32 (satSucc s.log.cntUnderrun) } })

/-- AUDIO_OUT returns the samples MIXPUSH pushed, in push order, each exactly once. In every run of
instructions without a RESET, MIXPUSH, pops and any others in any order, the samples queued at its start
followed by those pushed in it are the samples that left the queue followed by those still queued, and
the delivered samples are the ones that left, in that order, as PCM (R112). A pop of a queue that is not
empty does deliver: as many pops as there are samples up to `last` deliver just those and leave the rest
of the queue and everything else as it was. (A RESET discards what is queued, R475.) -/
def Obligations.SamplesLeaveInPushOrder : Prop :=
  (∀ (run : List Instr) (s : State), .reset ∉ run →
    ∃ (pushed gone : List Word) (t : State),
      sampleRun run s = some (pushed, gone.map to16, t) ∧ s.fifo ++ pushed = gone ++ t.fifo) ∧
  ∀ (s : State) (xs ys : List Word) (last : Word), s.fifo = xs ++ last :: ys →
    sampleRun (List.replicate (xs.length + 1) .pop) s =
      some ([], (xs ++ [last]).map to16,
        { s with fifo := ys, response := .audio (to16 last) false })

/-! ## System -/

/-- STRD answers the sticky bits in 0 to 3, the live bits of the two queues in 4 to 6 and 0 above, and
changes nothing (R44, R410). -/
def Obligations.StrdAnswersStatus : Prop :=
  ∀ s : State, ∃ r : Word, exec .strd s = .next (answered s r) ∧
    r.toNat =
      (if s.log.underrun then 1 else 0) + (if s.log.cmdErr then 2 else 0) +
      (if s.log.notifyOvf then 4 else 0) + (if s.log.midiDiag then 8 else 0) +
      (if s.fifo = [] then 16 else 0) + (if s.fifo.length = s.cfg.fifoDepth then 32 else 0) +
      (if s.nq = [] then 0 else 64)

/-- STCLR clears the sticky bits whose mask bit is set, keeps the others, and changes nothing else
(R411). -/
def Obligations.StclrClearsTheMaskedStickyBits : Prop :=
  ∀ (s : State) (m : Word),
    exec (.stclr m) s = .next
      { s with
        response := .cmd .ok 0
        log := { s.log with
          underrun := if m.toNat % 2 = 1 then false else s.log.underrun
          cmdErr := if m.toNat / 2 % 2 = 1 then false else s.log.cmdErr
          notifyOvf := if m.toNat / 4 % 2 = 1 then false else s.log.notifyOvf
          midiDiag := if m.toNat / 8 % 2 = 1 then false else s.log.midiDiag } }

/-- CNTRD answers the selected counter or capture register and changes nothing; CNTCLR zeroes that
register and changes no other, so that CNTRD of the same select then answers 0 and of another what it
answered before (R45, R46, R413, R414). -/
def Obligations.CntrdAndCntclrSelectOneRegister : Prop :=
  ∀ s : State,
    exec (.cntrd 0) s = .next (answered s s.log.cntUnderrun) ∧
    exec (.cntrd 1) s = .next (answered s s.log.cntMidiDiag) ∧
    exec (.cntrd 2) s = .next (answered s s.log.cntCmdErr) ∧
    exec (.cntrd 3) s = .next (answered s s.log.cntNotifyDrop) ∧
    exec (.cntrd 4) s = .next (answered s s.log.lastErr) ∧
    exec (.cntrd 5) s = .next (answered s s.log.lastDiag) ∧
    ∀ u : Byte, u.toNat < 6 → ∃ log : Log,
      exec (.cntclr u) s = .next { s with log := log, response := .cmd .ok 0 } ∧
      log.underrun = s.log.underrun ∧ log.cmdErr = s.log.cmdErr ∧
      log.notifyOvf = s.log.notifyOvf ∧ log.midiDiag = s.log.midiDiag ∧
      ∀ u' : Byte, u'.toNat < 6 → ∃ w : Word, exec (.cntrd u') s = .next (answered s w) ∧
        exec (.cntrd u') { s with log := log } =
          .next (answered { s with log := log } (if u' = u then 0 else w))

/-- NOP answers 0 and IDRD 0x464D0001; CFGRD answers SR, NV, FIFO_DEPTH, NOTIFY_DEPTH, ADE_SHIFT and
floor(65536 / NV); none changes anything (R412, R415, R416). -/
def Obligations.NopIdrdAndCfgrdAnswerConstants : Prop :=
  ∀ s : State, s.cfg.Legal →
    exec .nop s = .next (answered s 0) ∧
    exec .idrd s = .next (answered s 0x464D0001) ∧
    ∀ (u : Byte) (x : Nat),
      [s.cfg.sr, s.cfg.nv, s.cfg.fifoDepth, s.cfg.notifyDepth, s.cfg.adeShift,
        65536 / s.cfg.nv][u.toNat]? = some x →
      ∃ r : Word, exec (.cfgrd u) s = .next (answered s r) ∧ r.toNat = x

/-- RESET gives every piece of state its reset value, answers nothing, and keeps the configuration and
with it the ROMs; STRD then answers 0x10 (R470, R471, R472). -/
def Obligations.ResetRestoresEveryRegister : Prop :=
  ∀ s : State, ∃ t : State, exec .reset s = .next t ∧
    t.cfg = s.cfg ∧ t.response = .none ∧
    t.voices.length = s.cfg.nv ∧
    (∀ x ∈ t.voices,
      (∀ u, perOpGet x.phase u = 0) ∧
      x.envA = ⟨.complete, 0, 0⟩ ∧ x.envB = ⟨.complete, 0, 0⟩ ∧ x.vca = ⟨.complete, 0, 0, 0⟩ ∧
      x.pitch = 0 ∧ x.stack = [] ∧ x.vout = 0 ∧ x.rendered = false ∧ x.level.toInt = 65536) ∧
    t.noteMap.length = 128 ∧ (∀ e ∈ t.noteMap, e = none) ∧
    t.ccMap = s.cfg.ccMapReset ∧ t.params = s.cfg.patchReset ∧
    t.fbOwner = ⟨false, .a⟩ ∧ t.algActive = 0 ∧ t.fifo = [] ∧ t.nq = [] ∧
    t.log = ⟨false, false, false, false, 0, 0, 0, 0, 0, 0⟩ ∧
    (1 ≤ s.cfg.fifoDepth → exec .strd t = .next (answered t 0x10))
end

