-- ==== Sys2Proof/Laws/State.lean ====
section
/-! SUPPORT. What each named update of the state makes of each field, so that no proof unfolds one. -/

namespace Sys2Proof.Machine

/-! ## `respond` -/

section
variable (s : State) (st : Status) (res : Word)
@[simp] theorem respond_cfg : (respond s st res).cfg = s.cfg := rfl
@[simp] theorem respond_pending : (respond s st res).pending = s.pending := rfl
@[simp] theorem respond_response : (respond s st res).response = .cmd st res := rfl
@[simp] theorem respond_voices : (respond s st res).voices = s.voices := rfl
@[simp] theorem respond_noteMap : (respond s st res).noteMap = s.noteMap := rfl
@[simp] theorem respond_ccMap : (respond s st res).ccMap = s.ccMap := rfl
@[simp] theorem respond_params : (respond s st res).params = s.params := rfl
@[simp] theorem respond_fbOwner : (respond s st res).fbOwner = s.fbOwner := rfl
@[simp] theorem respond_algActive : (respond s st res).algActive = s.algActive := rfl
@[simp] theorem respond_fifo : (respond s st res).fifo = s.fifo := rfl
@[simp] theorem respond_nq : (respond s st res).nq = s.nq := rfl
@[simp] theorem respond_log : (respond s st res).log = s.log := rfl
end

/-! ## `raise` -/

section
variable (s : State) (opc : Byte) (st : Status)
@[simp] theorem raise_cfg : (raise s opc st).cfg = s.cfg := rfl
@[simp] theorem raise_pending : (raise s opc st).pending = s.pending := rfl
@[simp] theorem raise_response : (raise s opc st).response = .cmd st 0 := rfl
@[simp] theorem raise_voices : (raise s opc st).voices = s.voices := rfl
@[simp] theorem raise_noteMap : (raise s opc st).noteMap = s.noteMap := rfl
@[simp] theorem raise_ccMap : (raise s opc st).ccMap = s.ccMap := rfl
@[simp] theorem raise_params : (raise s opc st).params = s.params := rfl
@[simp] theorem raise_fbOwner : (raise s opc st).fbOwner = s.fbOwner := rfl
@[simp] theorem raise_algActive : (raise s opc st).algActive = s.algActive := rfl
@[simp] theorem raise_fifo : (raise s opc st).fifo = s.fifo := rfl
@[simp] theorem raise_nq : (raise s opc st).nq = s.nq := rfl
@[simp] theorem raise_log : (raise s opc st).log = logError s.log opc st := rfl
end

/-! ## `silent` -/

section
variable (s : State)
@[simp] theorem silent_cfg : (silent s).cfg = s.cfg := rfl
@[simp] theorem silent_pending : (silent s).pending = s.pending := rfl
@[simp] theorem silent_response : (silent s).response = .none := rfl
@[simp] theorem silent_voices : (silent s).voices = s.voices := rfl
@[simp] theorem silent_noteMap : (silent s).noteMap = s.noteMap := rfl
@[simp] theorem silent_ccMap : (silent s).ccMap = s.ccMap := rfl
@[simp] theorem silent_params : (silent s).params = s.params := rfl
@[simp] theorem silent_fbOwner : (silent s).fbOwner = s.fbOwner := rfl
@[simp] theorem silent_algActive : (silent s).algActive = s.algActive := rfl
@[simp] theorem silent_fifo : (silent s).fifo = s.fifo := rfl
@[simp] theorem silent_nq : (silent s).nq = s.nq := rfl
@[simp] theorem silent_log : (silent s).log = s.log := rfl
end

/-! ## `deliver` -/

section
variable (s : State) (r : Request)
@[simp] theorem deliver_cfg : (deliver s r).cfg = s.cfg := rfl
@[simp] theorem deliver_pending : (deliver s r).pending = r :: s.pending := rfl
@[simp] theorem deliver_response : (deliver s r).response = s.response := rfl
@[simp] theorem deliver_voices : (deliver s r).voices = s.voices := rfl
@[simp] theorem deliver_noteMap : (deliver s r).noteMap = s.noteMap := rfl
@[simp] theorem deliver_ccMap : (deliver s r).ccMap = s.ccMap := rfl
@[simp] theorem deliver_params : (deliver s r).params = s.params := rfl
@[simp] theorem deliver_fbOwner : (deliver s r).fbOwner = s.fbOwner := rfl
@[simp] theorem deliver_algActive : (deliver s r).algActive = s.algActive := rfl
@[simp] theorem deliver_fifo : (deliver s r).fifo = s.fifo := rfl
@[simp] theorem deliver_nq : (deliver s r).nq = s.nq := rfl
@[simp] theorem deliver_log : (deliver s r).log = s.log := rfl
end

/-! ## `setVoice` -/

section
variable (s : State) (v : Nat) (x : Voice)
@[simp] theorem setVoice_cfg : (setVoice s v x).cfg = s.cfg := rfl
@[simp] theorem setVoice_pending : (setVoice s v x).pending = s.pending := rfl
@[simp] theorem setVoice_response : (setVoice s v x).response = s.response := rfl
@[simp] theorem setVoice_voices : (setVoice s v x).voices = s.voices.set v x := rfl
@[simp] theorem setVoice_noteMap : (setVoice s v x).noteMap = s.noteMap := rfl
@[simp] theorem setVoice_ccMap : (setVoice s v x).ccMap = s.ccMap := rfl
@[simp] theorem setVoice_params : (setVoice s v x).params = s.params := rfl
@[simp] theorem setVoice_fbOwner : (setVoice s v x).fbOwner = s.fbOwner := rfl
@[simp] theorem setVoice_algActive : (setVoice s v x).algActive = s.algActive := rfl
@[simp] theorem setVoice_fifo : (setVoice s v x).fifo = s.fifo := rfl
@[simp] theorem setVoice_nq : (setVoice s v x).nq = s.nq := rfl
@[simp] theorem setVoice_log : (setVoice s v x).log = s.log := rfl
end

/-! ## `modifyVoice` -/

section
variable (s : State) (v : Nat) (f : Voice → Voice)
@[simp] theorem modifyVoice_cfg : (modifyVoice s v f).cfg = s.cfg := rfl
@[simp] theorem modifyVoice_pending : (modifyVoice s v f).pending = s.pending := rfl
@[simp] theorem modifyVoice_response : (modifyVoice s v f).response = s.response := rfl
@[simp] theorem modifyVoice_voices : (modifyVoice s v f).voices = s.voices.set v (f (voice s v)) := rfl
@[simp] theorem modifyVoice_noteMap : (modifyVoice s v f).noteMap = s.noteMap := rfl
@[simp] theorem modifyVoice_ccMap : (modifyVoice s v f).ccMap = s.ccMap := rfl
@[simp] theorem modifyVoice_params : (modifyVoice s v f).params = s.params := rfl
@[simp] theorem modifyVoice_fbOwner : (modifyVoice s v f).fbOwner = s.fbOwner := rfl
@[simp] theorem modifyVoice_algActive : (modifyVoice s v f).algActive = s.algActive := rfl
@[simp] theorem modifyVoice_fifo : (modifyVoice s v f).fifo = s.fifo := rfl
@[simp] theorem modifyVoice_nq : (modifyVoice s v f).nq = s.nq := rfl
@[simp] theorem modifyVoice_log : (modifyVoice s v f).log = s.log := rfl
end

/-! ## `setNoteOwner` -/

section
variable (s : State) (n : Data7) (e : Option Byte)
@[simp] theorem setNoteOwner_cfg : (setNoteOwner s n e).cfg = s.cfg := rfl
@[simp] theorem setNoteOwner_pending : (setNoteOwner s n e).pending = s.pending := rfl
@[simp] theorem setNoteOwner_response : (setNoteOwner s n e).response = s.response := rfl
@[simp] theorem setNoteOwner_voices : (setNoteOwner s n e).voices = s.voices := rfl
@[simp] theorem setNoteOwner_noteMap : (setNoteOwner s n e).noteMap = s.noteMap.set n.val e := rfl
@[simp] theorem setNoteOwner_ccMap : (setNoteOwner s n e).ccMap = s.ccMap := rfl
@[simp] theorem setNoteOwner_params : (setNoteOwner s n e).params = s.params := rfl
@[simp] theorem setNoteOwner_fbOwner : (setNoteOwner s n e).fbOwner = s.fbOwner := rfl
@[simp] theorem setNoteOwner_algActive : (setNoteOwner s n e).algActive = s.algActive := rfl
@[simp] theorem setNoteOwner_fifo : (setNoteOwner s n e).fifo = s.fifo := rfl
@[simp] theorem setNoteOwner_nq : (setNoteOwner s n e).nq = s.nq := rfl
@[simp] theorem setNoteOwner_log : (setNoteOwner s n e).log = s.log := rfl
end

/-! ## `unbindCc` -/

section
variable (s : State) (c : Data7)
@[simp] theorem unbindCc_cfg : (unbindCc s c).cfg = s.cfg := rfl
@[simp] theorem unbindCc_pending : (unbindCc s c).pending = s.pending := rfl
@[simp] theorem unbindCc_response : (unbindCc s c).response = s.response := rfl
@[simp] theorem unbindCc_voices : (unbindCc s c).voices = s.voices := rfl
@[simp] theorem unbindCc_noteMap : (unbindCc s c).noteMap = s.noteMap := rfl
@[simp] theorem unbindCc_ccMap : (unbindCc s c).ccMap = s.ccMap.set c.val none := rfl
@[simp] theorem unbindCc_params : (unbindCc s c).params = s.params := rfl
@[simp] theorem unbindCc_fbOwner : (unbindCc s c).fbOwner = s.fbOwner := rfl
@[simp] theorem unbindCc_algActive : (unbindCc s c).algActive = s.algActive := rfl
@[simp] theorem unbindCc_fifo : (unbindCc s c).fifo = s.fifo := rfl
@[simp] theorem unbindCc_nq : (unbindCc s c).nq = s.nq := rfl
@[simp] theorem unbindCc_log : (unbindCc s c).log = s.log := rfl
end

/-! ## `bindCc` -/

section
variable (s : State) (c : Data7) (id : Pid)
@[simp] theorem bindCc_cfg : (bindCc s c id).cfg = s.cfg := rfl
@[simp] theorem bindCc_pending : (bindCc s c id).pending = s.pending := rfl
@[simp] theorem bindCc_response : (bindCc s c id).response = s.response := rfl
@[simp] theorem bindCc_voices : (bindCc s c id).voices = s.voices := rfl
@[simp] theorem bindCc_noteMap : (bindCc s c id).noteMap = s.noteMap := rfl
@[simp] theorem bindCc_ccMap : (bindCc s c id).ccMap = (s.ccMap.map (fun e => if e = some id then none else e)).set c.val (some id) := rfl
@[simp] theorem bindCc_params : (bindCc s c id).params = s.params := rfl
@[simp] theorem bindCc_fbOwner : (bindCc s c id).fbOwner = s.fbOwner := rfl
@[simp] theorem bindCc_algActive : (bindCc s c id).algActive = s.algActive := rfl
@[simp] theorem bindCc_fifo : (bindCc s c id).fifo = s.fifo := rfl
@[simp] theorem bindCc_nq : (bindCc s c id).nq = s.nq := rfl
@[simp] theorem bindCc_log : (bindCc s c id).log = s.log := rfl
end

/-! ## `diagnose` -/

section
variable (s : State) (cause b0 : Byte) (b1 : Data7)
@[simp] theorem diagnose_cfg : (diagnose s cause b0 b1).cfg = s.cfg := rfl
@[simp] theorem diagnose_pending : (diagnose s cause b0 b1).pending = s.pending := rfl
@[simp] theorem diagnose_response : (diagnose s cause b0 b1).response = s.response := rfl
@[simp] theorem diagnose_voices : (diagnose s cause b0 b1).voices = s.voices := rfl
@[simp] theorem diagnose_noteMap : (diagnose s cause b0 b1).noteMap = s.noteMap := rfl
@[simp] theorem diagnose_ccMap : (diagnose s cause b0 b1).ccMap = s.ccMap := rfl
@[simp] theorem diagnose_params : (diagnose s cause b0 b1).params = s.params := rfl
@[simp] theorem diagnose_fbOwner : (diagnose s cause b0 b1).fbOwner = s.fbOwner := rfl
@[simp] theorem diagnose_algActive : (diagnose s cause b0 b1).algActive = s.algActive := rfl
@[simp] theorem diagnose_fifo : (diagnose s cause b0 b1).fifo = s.fifo := rfl
@[simp] theorem diagnose_nq : (diagnose s cause b0 b1).nq = s.nq := rfl
@[simp] theorem diagnose_log : (diagnose s cause b0 b1).log = logDiag s.log cause b0 b1 := rfl
end

/-! ## `answered` -/

section
variable (s : State) (res : Word)
@[simp] theorem answered_cfg : (answered s res).cfg = s.cfg := rfl
@[simp] theorem answered_pending : (answered s res).pending = s.pending := rfl
@[simp] theorem answered_response : (answered s res).response = .cmd .ok res := rfl
@[simp] theorem answered_voices : (answered s res).voices = s.voices := rfl
@[simp] theorem answered_noteMap : (answered s res).noteMap = s.noteMap := rfl
@[simp] theorem answered_ccMap : (answered s res).ccMap = s.ccMap := rfl
@[simp] theorem answered_params : (answered s res).params = s.params := rfl
@[simp] theorem answered_fbOwner : (answered s res).fbOwner = s.fbOwner := rfl
@[simp] theorem answered_algActive : (answered s res).algActive = s.algActive := rfl
@[simp] theorem answered_fifo : (answered s res).fifo = s.fifo := rfl
@[simp] theorem answered_nq : (answered s res).nq = s.nq := rfl
@[simp] theorem answered_log : (answered s res).log = s.log := rfl
end

/-! ## `notify` and `setParam` -/

section
variable (s : State) (id : Pid) (x : Word)
@[simp] theorem notify_cfg : (notify s id).cfg = s.cfg := by unfold notify; split <;> rfl
@[simp] theorem notify_pending : (notify s id).pending = s.pending := by unfold notify; split <;> rfl
@[simp] theorem notify_response : (notify s id).response = s.response := by unfold notify; split <;> rfl
@[simp] theorem notify_voices : (notify s id).voices = s.voices := by unfold notify; split <;> rfl
@[simp] theorem notify_noteMap : (notify s id).noteMap = s.noteMap := by unfold notify; split <;> rfl
@[simp] theorem notify_ccMap : (notify s id).ccMap = s.ccMap := by unfold notify; split <;> rfl
@[simp] theorem notify_params : (notify s id).params = s.params := by unfold notify; split <;> rfl
@[simp] theorem notify_fbOwner : (notify s id).fbOwner = s.fbOwner := by unfold notify; split <;> rfl
@[simp] theorem notify_algActive : (notify s id).algActive = s.algActive := by unfold notify; split <;> rfl
@[simp] theorem notify_fifo : (notify s id).fifo = s.fifo := by unfold notify; split <;> rfl
@[simp] theorem setParam_cfg : (setParam s id x).cfg = s.cfg := by simp [setParam]
@[simp] theorem setParam_pending : (setParam s id x).pending = s.pending := by simp [setParam]
@[simp] theorem setParam_response : (setParam s id x).response = s.response := by simp [setParam]
@[simp] theorem setParam_voices : (setParam s id x).voices = s.voices := by simp [setParam]
@[simp] theorem setParam_noteMap : (setParam s id x).noteMap = s.noteMap := by simp [setParam]
@[simp] theorem setParam_ccMap : (setParam s id x).ccMap = s.ccMap := by simp [setParam]
@[simp] theorem setParam_fbOwner : (setParam s id x).fbOwner = s.fbOwner := by simp [setParam]
@[simp] theorem setParam_algActive : (setParam s id x).algActive = s.algActive := by simp [setParam]
@[simp] theorem setParam_fifo : (setParam s id x).fifo = s.fifo := by simp [setParam]
@[simp] theorem setParam_params : (setParam s id x).params = paramWrite s.params id x := by simp [setParam]
end

/-! ## The MIDI messages: `engineNoteOn`, `engineNoteOff` and `midiControl` -/

section
variable (s : State) (b0 : Byte) (n c val : Data7)
@[simp] theorem engineNoteOn_cfg : (engineNoteOn s n).cfg = s.cfg := rfl
@[simp] theorem engineNoteOn_pending : (engineNoteOn s n).pending = s.pending := rfl
@[simp] theorem engineNoteOn_response : (engineNoteOn s n).response = s.response := rfl
@[simp] theorem engineNoteOn_ccMap : (engineNoteOn s n).ccMap = s.ccMap := rfl
@[simp] theorem engineNoteOn_params : (engineNoteOn s n).params = s.params := rfl
@[simp] theorem engineNoteOn_fbOwner : (engineNoteOn s n).fbOwner = s.fbOwner := rfl
@[simp] theorem engineNoteOn_algActive : (engineNoteOn s n).algActive = s.algActive := rfl
@[simp] theorem engineNoteOn_fifo : (engineNoteOn s n).fifo = s.fifo := rfl
@[simp] theorem engineNoteOn_nq : (engineNoteOn s n).nq = s.nq := rfl
@[simp] theorem engineNoteOn_log : (engineNoteOn s n).log = s.log := rfl
@[simp] theorem engineNoteOff_cfg : (engineNoteOff s b0 n).cfg = s.cfg := by
  unfold engineNoteOff; split <;> rfl
@[simp] theorem engineNoteOff_pending : (engineNoteOff s b0 n).pending = s.pending := by
  unfold engineNoteOff; split <;> rfl
@[simp] theorem engineNoteOff_response : (engineNoteOff s b0 n).response = s.response := by
  unfold engineNoteOff; split <;> rfl
@[simp] theorem engineNoteOff_ccMap : (engineNoteOff s b0 n).ccMap = s.ccMap := by
  unfold engineNoteOff; split <;> rfl
@[simp] theorem engineNoteOff_params : (engineNoteOff s b0 n).params = s.params := by
  unfold engineNoteOff; split <;> rfl
@[simp] theorem engineNoteOff_fbOwner : (engineNoteOff s b0 n).fbOwner = s.fbOwner := by
  unfold engineNoteOff; split <;> rfl
@[simp] theorem engineNoteOff_algActive : (engineNoteOff s b0 n).algActive = s.algActive := by
  unfold engineNoteOff; split <;> rfl
@[simp] theorem engineNoteOff_fifo : (engineNoteOff s b0 n).fifo = s.fifo := by
  unfold engineNoteOff; split <;> rfl
@[simp] theorem engineNoteOff_nq : (engineNoteOff s b0 n).nq = s.nq := by
  unfold engineNoteOff; split <;> rfl
@[simp] theorem midiControl_cfg : (midiControl s b0 c val).cfg = s.cfg := by
  unfold midiControl; split <;> simp
@[simp] theorem midiControl_pending : (midiControl s b0 c val).pending = s.pending := by
  unfold midiControl; split <;> simp
@[simp] theorem midiControl_response : (midiControl s b0 c val).response = s.response := by
  unfold midiControl; split <;> simp
@[simp] theorem midiControl_voices : (midiControl s b0 c val).voices = s.voices := by
  unfold midiControl; split <;> simp
@[simp] theorem midiControl_noteMap : (midiControl s b0 c val).noteMap = s.noteMap := by
  unfold midiControl; split <;> simp
@[simp] theorem midiControl_ccMap : (midiControl s b0 c val).ccMap = s.ccMap := by
  unfold midiControl; split <;> simp
@[simp] theorem midiControl_fbOwner : (midiControl s b0 c val).fbOwner = s.fbOwner := by
  unfold midiControl; split <;> simp
@[simp] theorem midiControl_algActive : (midiControl s b0 c val).algActive = s.algActive := by
  unfold midiControl; split <;> simp
@[simp] theorem midiControl_fifo : (midiControl s b0 c val).fifo = s.fifo := by
  unfold midiControl; split <;> simp
end

/-! ## `State.powerOn` -/

section
variable (c : Config)
@[simp] theorem powerOn_cfg : (State.powerOn c).cfg = c := rfl
@[simp] theorem powerOn_pending : (State.powerOn c).pending = [] := rfl
@[simp] theorem powerOn_response : (State.powerOn c).response = .none := rfl
@[simp] theorem powerOn_voices : (State.powerOn c).voices = List.replicate c.nv Voice.initial := rfl
@[simp] theorem powerOn_noteMap : (State.powerOn c).noteMap = List.replicate 128 none := rfl
@[simp] theorem powerOn_ccMap : (State.powerOn c).ccMap = c.ccMapReset := rfl
@[simp] theorem powerOn_params : (State.powerOn c).params = c.patchReset := rfl
@[simp] theorem powerOn_fbOwner : (State.powerOn c).fbOwner = ⟨false, .a⟩ := rfl
@[simp] theorem powerOn_algActive : (State.powerOn c).algActive = 0 := rfl
@[simp] theorem powerOn_fifo : (State.powerOn c).fifo = [] := rfl
@[simp] theorem powerOn_nq : (State.powerOn c).nq = [] := rfl
@[simp] theorem powerOn_log : (State.powerOn c).log = Log.initial := rfl
end

end Sys2Proof.Machine
end

