-- ==== Sys2Proof/Laws/Ops.lean ====
section
/-! SUPPORT. One lemma for each shared operation: what it answers, and everything it can do. -/

namespace Sys2Proof.Machine

/-! ## The checks that end in RANGE, and operands -/

theorem withVoice_lt {s : State} {o : Opcode} {v : Byte} {k : Nat → Out} (h : v.toNat < s.cfg.nv) :
    withVoice s o v k = k v.toNat := by simp [withVoice, h]

theorem withVoice_ge {s : State} {o : Opcode} {v : Byte} {k : Nat → Out} (h : s.cfg.nv ≤ v.toNat) :
    withVoice s o v k = fail s o .range := by simp [withVoice, h]

@[simp] theorem withUnit_some {α : Type} {s : State} {o : Opcode} {k : α → Out} (x : α) :
    withUnit s o (some x) k = k x := rfl

@[simp] theorem withUnit_none {α : Type} {s : State} {o : Opcode} {k : α → Out} :
    withUnit s o none k = fail s o .range := rfl

@[simp] theorem withOperand_some {α : Type} {s : State} {o : Opcode} {st : Status} {k : α → Out} (x : α) :
    withOperand s o st (some x) k = k x := rfl

@[simp] theorem withOperand_none {α : Type} {s : State} {o : Opcode} {st : Status} {k : α → Out} :
    withOperand s o st none k = fail s o st := rfl

/-- A command with a voice either runs on it or ends with RANGE. -/
theorem withVoice_cases {s : State} {o : Opcode} {v : Byte} {k : Nat → Out} {r : Out}
    (h : withVoice s o v k = r) :
    (v.toNat < s.cfg.nv ∧ k v.toNat = r) ∨ (s.cfg.nv ≤ v.toNat ∧ fail s o .range = r) := by
  rcases Nat.lt_or_ge v.toNat s.cfg.nv with hv | hv
  · exact .inl ⟨hv, (withVoice_lt hv).symm.trans h⟩
  · exact .inr ⟨hv, (withVoice_ge hv).symm.trans h⟩

/-- A command with a unit either runs on it or ends with RANGE. -/
theorem withUnit_cases {α : Type} {s : State} {o : Opcode} {u : Option α} {k : α → Out} {r : Out}
    (h : withUnit s o u k = r) :
    (∃ x, u = some x ∧ k x = r) ∨ (u = none ∧ fail s o .range = r) := by
  cases u with
  | some x => exact .inl ⟨x, rfl, h⟩
  | none => exact .inr ⟨rfl, h⟩

/-- A command with an operand that names something either runs on it or ends with the given error. -/
theorem withOperand_cases {α : Type} {s : State} {o : Opcode} {st : Status} {x : Option α}
    {k : α → Out} {r : Out} (h : withOperand s o st x k = r) :
    (∃ y, x = some y ∧ k y = r) ∨ (x = none ∧ fail s o st = r) := by
  cases x with
  | some y => exact .inl ⟨y, rfl, h⟩
  | none => exact .inr ⟨rfl, h⟩

/-! ## The unit codes of the spec and the model's reading of U -/

@[simp] theorem opOfU_opByte (u : OpUnit) : opOfU (opByte u) = some u := by cases u <;> decide

@[simp] theorem adeOfU_adeByte (e : AdeUnit) : adeOfU (adeByte e) = some e := by cases e <;> decide

@[simp] theorem envOfU_adeByte (e : AdeUnit) : envOfU (adeByte e) = some (.ade e) := by
  cases e <;> decide

@[simp] theorem envOfU_two : envOfU 2 = some .vca := by decide

@[simp] theorem adsrOfU_two : adsrOfU 2 = some () := by decide

/-- The meaning's reading of U and the class table agree, for every class. -/
theorem unit_isSome_iff_admits (u : Byte) :
    ((opOfU u).isSome = UClass.op.admits u) ∧ ((envOfU u).isSome = UClass.env.admits u) ∧
    ((adeOfU u).isSome = UClass.ade.admits u) ∧ ((adsrOfU u).isSome = UClass.adsr.admits u) ∧
    ((selOfU 5 u).isSome = UClass.kind.admits u) ∧ ((selOfU 6 u).isSome = UClass.cnt.admits u) ∧
    ((selOfU 6 u).isSome = UClass.cfg.admits u) := by
  revert u; decide

@[simp] theorem opOfCode_opCode (u : OpUnit) : opOfCode (opCode u) = u := by cases u <;> decide

/-! ## Voices -/

theorem voice_of_getElem? {s : State} {v : Nat} {x : Voice} (h : s.voices[v]? = some x) :
    voice s v = x := by simp [voice, List.getD, h]

theorem modifyVoice_eq {s : State} {v : Nat} {x : Voice} (f : Voice → Voice)
    (h : s.voices[v]? = some x) : modifyVoice s v f = { s with voices := s.voices.set v (f x) } := by
  simp [modifyVoice, setVoice, voice_of_getElem? h]

/-- Writing a voice changes that voice, and no other. -/
theorem voice_setVoice (s : State) (v w : Nat) (x : Voice) (h : v < s.voices.length) :
    voice (setVoice s v x) w = if v = w then x else voice s w := by
  unfold voice
  by_cases hw : v = w
  · subst hw; simp [List.getD, h]
  · simp [List.getD, hw]

@[simp] theorem perOpGet_perOpSet {α : Type} (p : PerOp α) (u w : OpUnit) (x : α) :
    perOpGet (perOpSet p u x) w = if u = w then x else perOpGet p w := by
  cases u <;> cases w <;> rfl

@[simp] theorem voiceAde_voiceSetAde (x : Voice) (e f : AdeUnit) (a : Ade) :
    voiceAde (voiceSetAde x e a) f = if e = f then a else voiceAde x f := by
  cases e <;> cases f <;> rfl

@[simp] theorem voiceSetAde_self (x : Voice) (e : AdeUnit) : voiceSetAde x e (voiceAde x e) = x := by
  cases e <;> rfl

/-! ## Errors and diagnostics, as the spec's numbers -/

/-- A concatenation as a number. -/
theorem toNat_append_eq {m n : Nat} (x : BitVec m) (y : BitVec n) :
    (x ++ y).toNat = x.toNat * 2 ^ n + y.toNat := by
  rw [BitVec.toNat_append, ← Nat.shiftLeft_add_eq_or_of_lt y.isLt, Nat.shiftLeft_eq]

theorem satInc32_eq (n : Word) : satInc32 n = BitVec.ofNat 32 (satSucc n) := by
  unfold satInc32 satSucc
  split
  · next h => subst h; rfl
  · next h =>
    apply BitVec.eq_of_toNat_eq
    have : n.toNat ≠ 4294967295 := fun e => h (BitVec.eq_of_toNat_eq e)
    have := n.isLt
    have h1 : (1 : Word).toNat = 1 := rfl
    rw [BitVec.toNat_add, BitVec.toNat_ofNat, h1]
    omega

@[simp] theorem satInc32_toNat (n : Word) : (satInc32 n).toNat = satSucc n := by
  rw [satInc32_eq]
  simp only [BitVec.toNat_ofNat, satSucc]
  omega

theorem lastErr_toNat (opc : Byte) (st : Status) :
    (0#16 ++ opc ++ 0#4 ++ statusCode st : Word).toNat = opc.toNat * 256 + statusNumber st := by
  have h : (0#16 ++ opc ++ 0#4 ++ statusCode st : Word).toNat =
      opc.toNat * 256 + (statusCode st).toNat := by
    rw [toNat_append_eq (0#16 ++ opc ++ 0#4) (statusCode st), toNat_append_eq (0#16 ++ opc) (0#4),
      toNat_append_eq (0#16) opc]
    simp
    omega
  rw [h]
  cases st <;> rfl

theorem lastErr_eq (opc : Byte) (st : Status) :
    (0#16 ++ opc ++ 0#4 ++ statusCode st : Word) =
      BitVec.ofNat 32 (opc.toNat * 256 + statusNumber st) := by
  rw [← lastErr_toNat, BitVec.ofNat_toNat, BitVec.setWidth_eq]

theorem lastDiag_toNat (cause b0 : Byte) (d : Data7) :
    (0#8 ++ dataByte d ++ b0 ++ cause : Word).toNat =
      d.val * 65536 + b0.toNat * 256 + cause.toNat := by
  have h3 := d.isLt
  rw [toNat_append_eq (0#8 ++ dataByte d ++ b0) cause, toNat_append_eq (0#8 ++ dataByte d) b0,
    toNat_append_eq (0#8) (dataByte d)]
  simp [dataByte]
  omega

theorem lastDiag_eq (cause b0 : Byte) (d : Data7) :
    (0#8 ++ dataByte d ++ b0 ++ cause : Word) =
      BitVec.ofNat 32 (d.val * 65536 + b0.toNat * 256 + cause.toNat) := by
  rw [← lastDiag_toNat, BitVec.ofNat_toNat, BitVec.setWidth_eq]

/-- The diagnostic operation is R434's effect. -/
theorem diagnose_silent_eq (s : State) (cause b0 : Byte) (d : Data7) :
    diagnose (silent s) cause b0 d = afterDiag s cause.toNat b0 d.val := by
  simp [diagnose, silent, afterDiag, logDiag, satInc32_eq, lastDiag_eq]

/-- The error operation is R432's effect, for every status but BUSY. -/
theorem raise_eq_afterError (s : State) (opc : Byte) {st : Status} (h : st ≠ .busy) :
    raise s opc st = afterError s opc st := by
  simp [raise, afterError, logError, h, satInc32_eq, lastErr_eq]

theorem raise_busy (s : State) (opc : Byte) : raise s opc .busy = { s with response := .cmd .busy 0 } := by
  simp [raise, logError]

theorem fail_eq (s : State) (o : Opcode) {st : Status} (h : st ≠ .busy) :
    fail s o st = .next (afterError s o.byte st) := by rw [fail, raise_eq_afterError s _ h]

end Sys2Proof.Machine
end

