-- ==== Sys2Proof/Laws/Decode.lean ====
section
/-! SUPPORT. The fields of a command word, the opcode table read both ways, and what the decoder does
with a word whose fields are written out. -/

namespace Sys2Proof

/-! ## The opcode table -/

@[simp] theorem ofByte_byte (o : Opcode) : Opcode.ofByte o.byte = some o := by cases o <;> decide

theorem byte_of_ofByte {b : Byte} {o : Opcode} (h : Opcode.ofByte b = some o) : o.byte = b := by
  simpa using List.find?_some h

/-! ## Fields -/

theorem cmdOpc_toNat (w : Word) : (cmdOpc w).toNat = w.toNat / 2 ^ 24 := by
  have := w.isLt
  simp [cmdOpc, Nat.shiftRight_eq_div_pow]
  omega

theorem cmdV_toNat (w : Word) : (cmdV w).toNat = w.toNat / 2 ^ 16 % 256 := by
  simp [cmdV, Nat.shiftRight_eq_div_pow]

theorem cmdU_toNat (w : Word) : (cmdU w).toNat = w.toNat / 2 ^ 8 % 256 := by
  simp [cmdU, Nat.shiftRight_eq_div_pow]

theorem cmdZ_toNat (w : Word) : (cmdZ w).toNat = w.toNat % 256 := by
  simp [cmdZ]

theorem fields_toNat (opc v u z : Byte) :
    (opc ++ v ++ u ++ z : Word).toNat =
      opc.toNat * 2 ^ 24 + v.toNat * 2 ^ 16 + u.toNat * 2 ^ 8 + z.toNat := by
  rw [Machine.toNat_append_eq (opc ++ v ++ u) z, Machine.toNat_append_eq (opc ++ v) u,
    Machine.toNat_append_eq opc v]
  omega

section
variable (opc v u z : Byte)

@[simp] theorem cmdOpc_fields : cmdOpc (opc ++ v ++ u ++ z) = opc := by
  apply BitVec.eq_of_toNat_eq
  have := v.isLt; have := u.isLt; have := z.isLt
  rw [cmdOpc_toNat, fields_toNat]; omega

@[simp] theorem cmdV_fields : cmdV (opc ++ v ++ u ++ z) = v := by
  apply BitVec.eq_of_toNat_eq
  have := v.isLt; have := u.isLt; have := z.isLt
  rw [cmdV_toNat, fields_toNat]; omega

@[simp] theorem cmdU_fields : cmdU (opc ++ v ++ u ++ z) = u := by
  apply BitVec.eq_of_toNat_eq
  have := v.isLt; have := u.isLt; have := z.isLt
  rw [cmdU_toNat, fields_toNat]; omega

@[simp] theorem cmdZ_fields : cmdZ (opc ++ v ++ u ++ z) = z := by
  apply BitVec.eq_of_toNat_eq
  have := v.isLt; have := u.isLt; have := z.isLt
  rw [cmdZ_toNat, fields_toNat]; omega
end

/-- A word is the concatenation of its four fields. -/
theorem fields_of_word (w : Word) : cmdOpc w ++ cmdV w ++ cmdU w ++ cmdZ w = w := by
  apply BitVec.eq_of_toNat_eq
  have := w.isLt
  rw [fields_toNat, cmdOpc_toNat, cmdV_toNat, cmdU_toNat, cmdZ_toNat]; omega

/-! ## The decoder -/

/-- What the decoder answers for a word of known fields. -/
theorem decodeCmd_fields (opc v u z : Byte) (a b : Word) :
    decodeCmd (opc ++ v ++ u ++ z) a b =
      match Opcode.ofByte opc with
      | none => .error .unknownOpcode
      | some o =>
        if z ≠ 0 then .error .nonzeroZ
        else if o.usesVoice = false ∧ v ≠ 0 then .error .unusedV
        else if o.uclass = .none ∧ u ≠ 0 then .error .unusedU
        else .ok (o.assemble v u a b) := by
  cases h : Opcode.ofByte opc <;>
    simp [decodeCmd, cmdOpc_fields, cmdV_fields, cmdU_fields, cmdZ_fields, h]

/-- A word of the opcode map, with the fields its opcode does not use 0, decodes. -/
theorem decodeCmd_cmdWord (o : Opcode) (v u : Byte) (a b : Word)
    (hv : o.usesVoice = true ∨ v = 0) (hu : o.uclass ≠ .none ∨ u = 0) :
    decodeCmd (cmdWord o v u) a b = .ok (o.assemble v u a b) := by
  rw [cmdWord, decodeCmd_fields, ofByte_byte]
  rcases hv with hv | hv <;> rcases hu with hu | hu <;> simp [hv, hu]

/-- What a word that decodes looks like. -/
theorem decodeCmd_ok {w a b : Word} {i : Instr} (h : decodeCmd w a b = .ok i) :
    ∃ o v u, w = cmdWord o v u ∧ (o.usesVoice = true ∨ v = 0) ∧ (o.uclass ≠ .none ∨ u = 0) ∧
      i = o.assemble v u a b := by
  have hw := fields_of_word w
  revert h
  rw [← hw, decodeCmd_fields]
  cases ho : Opcode.ofByte (cmdOpc w) with
  | none => simp
  | some o =>
    simp only
    intro h
    split at h
    · cases h
    split at h
    · cases h
    split at h
    · cases h
    next hz hv hu =>
    refine ⟨o, cmdV w, cmdU w, ?_, ?_, ?_, ?_⟩
    · rw [cmdWord, byte_of_ofByte ho, Decidable.not_not.mp hz]; rfl
    · by_contra hn; simp_all
    · by_contra hn; simp_all
    · cases h; rfl

@[simp] theorem opcByte_cmdWord (o : Opcode) (v u : Byte) (a b : Word) :
    (Request.cmd (cmdWord o v u) a b).opcByte = o.byte := by simp [Request.opcByte, cmdWord]

/-! ## Bytes -/

@[simp] theorem wordOfBytes_bytesOfWord (w : Word) :
    wordOfBytes (w.extractLsb' 0 8) (w.extractLsb' 8 8) (w.extractLsb' 16 8) (w.extractLsb' 24 8) =
      w := fields_of_word w

@[simp] theorem ofBytes_toBytes (r : Request) : Request.ofBytes r.port r.toBytes = some r := by
  cases r <;> simp [Request.ofBytes, Request.toBytes, Request.port, bytesOfWord]

/-- The request of an instruction travels on the port of the instruction. -/
@[simp] theorem encode_port (i : Instr) : (encode i).port = i.port := by cases i <;> rfl

end Sys2Proof
end

