-- ==== Sys2Proof/Laws/Fp32.lean ====
section
/-! SUPPORT. The fixed-point functions as exact integer arithmetic. -/

namespace Sys2Proof.Machine

theorem asr_eq (x : Int) (k : Nat) : asr x k = x / 2 ^ k := by
  rw [asr, Int.shiftRight_eq_div_pow]; norm_cast

/-- A value in the range of an Fp32 is not changed by wrapping. -/
theorem wrap32_toInt {x : Int} (h1 : -2147483648 ≤ x) (h2 : x < 2147483648) :
    (wrap32 x).toInt = x := by
  rw [wrap32, BitVec.toInt_ofInt]
  exact Int.bmod_eq_of_le (by omega) (by omega)

theorem wrap32_toInt_bmod (x : Int) : (wrap32 x).toInt = Int.bmod x (2 ^ 32) := by
  rw [wrap32, BitVec.toInt_ofInt]

@[simp] theorem wrap32_toInt_self (x : Word) : wrap32 x.toInt = x := by simp [wrap32]

theorem toInt_bounds (x : Word) : -2147483648 ≤ x.toInt ∧ x.toInt < 2147483648 := by
  have h1 := BitVec.le_two_mul_toInt (x := x)
  have h2 := BitVec.two_mul_toInt_lt (x := x)
  omega

/-- FMUL is the floor of the exact product over 65536, reduced to 32 bits. -/
theorem fmul_toInt (a b : Word) :
    (fmul a b).toInt = Int.bmod (a.toInt * b.toInt / 65536) (2 ^ 32) := by
  rw [fmul, wrap32_toInt_bmod, asr_eq]; norm_num

theorem fmul_comm (a b : Word) : fmul a b = fmul b a := by rw [fmul, fmul, Int.mul_comm]

@[simp] theorem fmul_one (a : Word) : fmul a 0x10000 = a := by
  have h : (0x10000 : Word).toInt = 65536 := by decide
  rw [fmul, asr_eq, h]; simp

/-- The product of values within full scale, before any wrap. -/
theorem fmul_within {a b : Word} (ha : a.toInt.natAbs ≤ 65536) (hb : b.toInt.natAbs ≤ 65536) :
    (fmul a b).toInt = a.toInt * b.toInt / 65536 ∧ (fmul a b).toInt.natAbs ≤ 65536 := by
  have h1 : -4294967296 ≤ a.toInt * b.toInt ∧ a.toInt * b.toInt ≤ 4294967296 := by
    have h : (a.toInt * b.toInt).natAbs ≤ 65536 * 65536 := by
      rw [Int.natAbs_mul]; exact Nat.mul_le_mul ha hb
    omega
  have h2 : (fmul a b).toInt = a.toInt * b.toInt / 65536 := by
    rw [fmul_toInt]
    exact Int.bmod_eq_of_le (by omega) (by omega)
  exact ⟨h2, by omega⟩

theorem fadd_eq (a b : Word) : fadd a b = a + b := by
  apply BitVec.eq_of_toInt_eq
  rw [fadd, wrap32_toInt_bmod, BitVec.toInt_add]

theorem fsub_eq (a b : Word) : fsub a b = a - b := by
  apply BitVec.eq_of_toInt_eq
  rw [fsub, wrap32_toInt_bmod, BitVec.toInt_sub]

theorem fshr_toInt (a : Word) (k : Nat) : (fshr a k).toInt = a.toInt / 2 ^ k := by
  have hb := toInt_bounds a
  have hp : (1 : Int) ≤ 2 ^ k := by exact_mod_cast Nat.one_le_two_pow
  rw [fshr, asr_eq]
  apply wrap32_toInt
  · exact (Int.le_ediv_iff_mul_le (by omega)).mpr (by nlinarith)
  · exact Int.ediv_lt_of_lt_mul (by omega) (by nlinarith)

theorem clamp_within (x : Int) {lo hi : Int} (h : lo ≤ hi) : lo ≤ clamp x lo hi ∧ clamp x lo hi ≤ hi := by
  unfold clamp; split <;> [skip; split] <;> omega

theorem clamp_eq (x : Int) {lo hi : Int} (h : lo ≤ hi) : clamp x lo hi = max lo (min x hi) := by
  unfold clamp; split <;> [skip; split] <;> omega

/-- The PCM sample is the clipped value halved. -/
theorem to16_toInt (a : Word) : (to16 a).toInt = max (-65536) (min a.toInt 65535) / 2 := by
  rw [to16, asr_eq, clamp_eq _ (by decide), BitVec.toInt_ofInt]
  exact Int.bmod_eq_of_le (by omega) (by omega)

end Sys2Proof.Machine
end

