-- ==== Sys2Proof/Laws/PerInstr.lean ====
section
/-! SUPPORT. The framing law (spec/30_encoding.md R139), one lemma per constructor of `Instr`: the
encoding of an instruction has the number of bytes its port frames, and those bytes read back as it. -/

namespace Sys2Proof.Laws

/-- The number of bytes a request has on its port (R139). -/
def Framing.bytes : Port → Nat
  | .cmd => 12
  | .midiIn => 3
  | .audioOut => 0
  | .reset => 0

/-- The encoding of an instruction fills exactly one request of its port. -/
def Framing.Statement (i : Instr) : Prop :=
  (encode i).toBytes.length = Framing.bytes i.port ∧
    Request.ofBytes i.port (encode i).toBytes = some (encode i)

/-- Reading back the bytes of a request of a known port. -/
theorem Framing.readBack (i : Instr) :
    Request.ofBytes i.port (encode i).toBytes = some (encode i) := by
  rw [← encode_port, ofBytes_toBytes]

theorem Framing.nop : Framing.Statement (.nop) := ⟨rfl, Framing.readBack _⟩
theorem Framing.fmul (a b : Word) : Framing.Statement (.fmul a b) := ⟨rfl, Framing.readBack _⟩
theorem Framing.fadd (a b : Word) : Framing.Statement (.fadd a b) := ⟨rfl, Framing.readBack _⟩
theorem Framing.fsub (a b : Word) : Framing.Statement (.fsub a b) := ⟨rfl, Framing.readBack _⟩
theorem Framing.fshr (a k : Word) : Framing.Statement (.fshr a k) := ⟨rfl, Framing.readBack _⟩
theorem Framing.fto16 (a : Word) : Framing.Statement (.fto16 a) := ⟨rfl, Framing.readBack _⟩
theorem Framing.fxmix (x y : Word) : Framing.Statement (.fxmix x y) := ⟨rfl, Framing.readBack _⟩
theorem Framing.oprot (v u : Byte) (freq pm : Word) : Framing.Statement (.oprot v u freq pm) := ⟨rfl, Framing.readBack _⟩
theorem Framing.oprd (v u : Byte) : Framing.Statement (.oprd v u) := ⟨rfl, Framing.readBack _⟩
theorem Framing.opwr (v u : Byte) (phase : Word) : Framing.Statement (.opwr v u phase) := ⟨rfl, Framing.readBack _⟩
theorem Framing.etrig (v u : Byte) : Framing.Statement (.etrig v u) := ⟨rfl, Framing.readBack _⟩
theorem Framing.eretrig (v u : Byte) : Framing.Statement (.eretrig v u) := ⟨rfl, Framing.readBack _⟩
theorem Framing.erel (v u : Byte) : Framing.Statement (.erel v u) := ⟨rfl, Framing.readBack _⟩
theorem Framing.escale (v u : Byte) (sig : Word) : Framing.Statement (.escale v u sig) := ⟨rfl, Framing.readBack _⟩
theorem Framing.eidx (v u : Byte) : Framing.Statement (.eidx v u) := ⟨rfl, Framing.readBack _⟩
theorem Framing.erdcur (v u : Byte) : Framing.Statement (.erdcur v u) := ⟨rfl, Framing.readBack _⟩
theorem Framing.erdst (v u : Byte) : Framing.Statement (.erdst v u) := ⟨rfl, Framing.readBack _⟩
theorem Framing.erdcnt (v u : Byte) : Framing.Statement (.erdcnt v u) := ⟨rfl, Framing.readBack _⟩
theorem Framing.erdref (v u : Byte) : Framing.Statement (.erdref v u) := ⟨rfl, Framing.readBack _⟩
theorem Framing.vout (v : Byte) (sig : Word) : Framing.Statement (.vout v sig) := ⟨rfl, Framing.readBack _⟩
theorem Framing.vpitch (v : Byte) : Framing.Statement (.vpitch v) := ⟨rfl, Framing.readBack _⟩
theorem Framing.vcur (v : Byte) : Framing.Statement (.vcur v) := ⟨rfl, Framing.readBack _⟩
theorem Framing.vslen (v : Byte) : Framing.Statement (.vslen v) := ⟨rfl, Framing.readBack _⟩
theorem Framing.vstk (v : Byte) (idx : Word) : Framing.Statement (.vstk v idx) := ⟨rfl, Framing.readBack _⟩
theorem Framing.vmap (note : Word) : Framing.Statement (.vmap note) := ⟨rfl, Framing.readBack _⟩
theorem Framing.mixpush : Framing.Statement (.mixpush) := ⟨rfl, Framing.readBack _⟩
theorem Framing.mlvlwr (v : Byte) (level : Word) : Framing.Statement (.mlvlwr v level) := ⟨rfl, Framing.readBack _⟩
theorem Framing.mlvlrd (v : Byte) : Framing.Statement (.mlvlrd v) := ⟨rfl, Framing.readBack _⟩
theorem Framing.mvoutrd (v : Byte) : Framing.Statement (.mvoutrd v) := ⟨rfl, Framing.readBack _⟩
theorem Framing.fifolvl : Framing.Statement (.fifolvl) := ⟨rfl, Framing.readBack _⟩
theorem Framing.prd (u : Byte) (id : Word) : Framing.Statement (.prd u id) := ⟨rfl, Framing.readBack _⟩
theorem Framing.pwr (id val : Word) : Framing.Statement (.pwr id val) := ⟨rfl, Framing.readBack _⟩
theorem Framing.pkind (id : Word) : Framing.Statement (.pkind id) := ⟨rfl, Framing.readBack _⟩
theorem Framing.ccwr (cc binding : Word) : Framing.Statement (.ccwr cc binding) := ⟨rfl, Framing.readBack _⟩
theorem Framing.ccrd (cc : Word) : Framing.Statement (.ccrd cc) := ⟨rfl, Framing.readBack _⟩
theorem Framing.npop : Framing.Statement (.npop) := ⟨rfl, Framing.readBack _⟩
theorem Framing.papply (owner : Word) : Framing.Statement (.papply owner) := ⟨rfl, Framing.readBack _⟩
theorem Framing.paprd : Framing.Statement (.paprd) := ⟨rfl, Framing.readBack _⟩
theorem Framing.strd : Framing.Statement (.strd) := ⟨rfl, Framing.readBack _⟩
theorem Framing.stclr (mask : Word) : Framing.Statement (.stclr mask) := ⟨rfl, Framing.readBack _⟩
theorem Framing.cntrd (u : Byte) : Framing.Statement (.cntrd u) := ⟨rfl, Framing.readBack _⟩
theorem Framing.cntclr (u : Byte) : Framing.Statement (.cntclr u) := ⟨rfl, Framing.readBack _⟩
theorem Framing.idrd : Framing.Statement (.idrd) := ⟨rfl, Framing.readBack _⟩
theorem Framing.cfgrd (u : Byte) : Framing.Statement (.cfgrd u) := ⟨rfl, Framing.readBack _⟩
theorem Framing.midiNoteOn (ch : BitVec 4) (b1 b2 : Byte) : Framing.Statement (.midiNoteOn ch b1 b2) := ⟨rfl, Framing.readBack _⟩
theorem Framing.midiNoteOff (ch : BitVec 4) (b1 b2 : Byte) : Framing.Statement (.midiNoteOff ch b1 b2) := ⟨rfl, Framing.readBack _⟩
theorem Framing.midiCc (ch : BitVec 4) (b1 b2 : Byte) : Framing.Statement (.midiCc ch b1 b2) := ⟨rfl, Framing.readBack _⟩
theorem Framing.midiOther (b0 b1 b2 : Byte) : Framing.Statement (.midiOther b0 b1 b2) := ⟨rfl, Framing.readBack _⟩
theorem Framing.pop : Framing.Statement (.pop) := ⟨rfl, Framing.readBack _⟩
theorem Framing.reset : Framing.Statement (.reset) := ⟨rfl, Framing.readBack _⟩

end Sys2Proof.Laws
end

