-- ==== Sys2Proof/Laws/Units.lean ====
section
/-! SUPPORT. What the phase update, the envelope ramps, the note stack and the allocator do, with no
wrap and no truncation left to think about. -/

namespace Sys2Proof.Machine

/-! ## The phase update -/

theorem pstep_eq (sr p : Nat) (d : Int) :
    pstep sr p d = if (p : Int) + d < 0 then 0 else (((p : Int) + d) % sr).toNat := by
  unfold pstep
  simp only
  rcases lt_or_ge ((p : Int) + d) 0 with h | h
  · have h2 : Int.tmod ((p : Int) + d) sr ≤ 0 := by
      have := Int.tmod_nonneg (sr : Int) (a := -((p : Int) + d)) (by omega)
      rw [Int.neg_tmod] at this; omega
    rw [if_pos h]; split <;> omega
  · rw [Int.tmod_eq_emod_of_nonneg h, if_neg (show ¬ ((p : Int) + d < 0) by omega)]
    have h1 : 0 ≤ ((p : Int) + d) % sr := by
      rcases Nat.eq_zero_or_pos sr with h0 | h0
      · simpa [h0] using h
      · exact Int.emod_nonneg _ (by omega)
    exact if_neg (by omega)

theorem pstep_lt {sr : Nat} (p : Nat) (d : Int) (h : 0 < sr) : pstep sr p d < sr := by
  rw [pstep_eq]
  split
  · exact h
  · have := Int.emod_lt_of_pos ((p : Int) + d) (b := sr) (by omega)
    have := Int.emod_nonneg ((p : Int) + d) (b := sr) (by omega)
    omega

/-! ## Ramps -/

/-- A line from 0 toward `d` over `a` samples stays between them: no gain of a ramp wraps. -/
theorem tdiv_between (d : Int) {n a : Nat} (h : n ≤ a) :
    (0 ≤ d → 0 ≤ Int.tdiv (d * n) a ∧ Int.tdiv (d * n) a ≤ d) ∧
    (d ≤ 0 → d ≤ Int.tdiv (d * n) a ∧ Int.tdiv (d * n) a ≤ 0) := by
  have pos : ∀ e : Int, 0 ≤ e → 0 ≤ Int.tdiv (e * n) a ∧ Int.tdiv (e * n) a ≤ e := by
    intro e he
    have hn : 0 ≤ e * (n : Int) := Int.mul_nonneg he (by omega)
    refine ⟨Int.tdiv_nonneg hn (by omega), ?_⟩
    rw [Int.tdiv_eq_ediv_of_nonneg hn]
    rcases Nat.eq_zero_or_pos a with h0 | h0
    · subst h0; simpa using he
    · apply Int.ediv_le_of_le_mul (by omega)
      exact Int.mul_le_mul_of_nonneg_left (by omega) he
  refine ⟨pos d, fun hd => ?_⟩
  have := pos (-d) (by omega)
  rw [Int.neg_mul, Int.neg_tdiv] at this
  omega

theorem atLeastOne_pos (x : BitVec 16) : 0 < atLeastOne x := by simp [atLeastOne]

/-- The ADE's ramp reaches full scale when the scaled counter is full scale times the length. -/
theorem fs_le_ramp {m a : Nat} (h : 0 < a) : fs ≤ ((m / a : Nat) : Int) ↔ 65536 * a ≤ m := by
  have : fs = ((65536 : Nat) : Int) := rfl
  rw [this, Int.ofNat_le, Nat.le_div_iff_mul_le h]

/-! ## The ADE, one sample -/

section
variable {sh : Nat} {p : AdeParams} {e : Ade}

theorem adeAdvance_attack (h : e.state = .attack) :
    adeAdvance sh p e =
      if 65536 * atLeastOne p.attack ≤ satSucc e.n * 2 ^ sh then
        ⟨if p.gated then .sustain else .decay, wrap32 65536, 0⟩
      else ⟨.attack, wrap32 ((satSucc e.n * 2 ^ sh / atLeastOne p.attack : Nat) : Int), satInc32 e.n⟩ := by
  simp only [adeAdvance, h, fs_le_ramp (atLeastOne_pos _), satInc32_toNat, Nat.shiftLeft_eq]
  rfl

theorem adeAdvance_sustain (h : e.state = .sustain) :
    adeAdvance sh p e = ⟨.sustain, wrap32 65536, satInc32 e.n⟩ := by
  simp only [adeAdvance, h]; rfl

theorem adeAdvance_decay (h : e.state = .decay) :
    adeAdvance sh p e =
      if 65536 - ((satSucc e.n * 2 ^ sh / atLeastOne p.decay : Nat) : Int) ≤ p.endLevel.toInt then
        ⟨.complete, p.endLevel, 0⟩
      else ⟨.decay, wrap32 (65536 - ((satSucc e.n * 2 ^ sh / atLeastOne p.decay : Nat) : Int)),
        satInc32 e.n⟩ := by
  simp only [adeAdvance, h, satInc32_toNat, Nat.shiftLeft_eq]; rfl

theorem adeAdvance_complete (h : e.state = .complete) :
    adeAdvance sh p e = ⟨.complete, e.cur, satInc32 e.n⟩ := by
  simp only [adeAdvance, h]
end

/-! ## The ADSR, one sample -/

section
variable {p : VcaParams} {e : Adsr}

theorem adsrAdvance_attack (h : e.state = .attack) :
    adsrAdvance p e =
      if atLeastOne p.attack ≤ satSucc e.n then ⟨.decay, wrap32 65536, 0, e.ref⟩
      else ⟨.attack, wrap32 (max e.ref.toInt ((satSucc e.n * 65536 / atLeastOne p.attack : Nat) : Int)),
        satInc32 e.n, e.ref⟩ := by
  simp only [adsrAdvance, h, fs_le_ramp (atLeastOne_pos _), satInc32_toNat, Nat.shiftLeft_eq]
  have : 65536 * atLeastOne p.attack ≤ satSucc e.n * 2 ^ 16 ↔ atLeastOne p.attack ≤ satSucc e.n := by omega
  simp only [this]; rfl

theorem adsrAdvance_decay (h : e.state = .decay) :
    adsrAdvance p e =
      if atLeastOne p.decay ≤ satSucc e.n then ⟨.sustain, p.sustain, 0, e.ref⟩
      else ⟨.decay,
        wrap32 (65536 - Int.tdiv ((65536 - p.sustain.toInt) * satSucc e.n) (atLeastOne p.decay)),
        satInc32 e.n, e.ref⟩ := by
  simp only [adsrAdvance, h, satInc32_toNat]; rfl

theorem adsrAdvance_sustain (h : e.state = .sustain) :
    adsrAdvance p e = ⟨.sustain, p.sustain, satInc32 e.n, e.ref⟩ := by
  simp only [adsrAdvance, h]

theorem adsrAdvance_release (h : e.state = .release) :
    adsrAdvance p e =
      if atLeastOne p.release ≤ satSucc e.n then ⟨.complete, 0, 0, e.ref⟩
      else ⟨.release,
        wrap32 (e.ref.toInt - Int.tdiv (e.ref.toInt * satSucc e.n) (atLeastOne p.release)),
        satInc32 e.n, e.ref⟩ := by
  simp only [adsrAdvance, h, satInc32_toNat]

theorem adsrAdvance_complete (h : e.state = .complete) :
    adsrAdvance p e = ⟨.complete, 0, satInc32 e.n, e.ref⟩ := by
  simp only [adsrAdvance, h]

/-- The gain of the attack ramp, with no wrap. -/
theorem attack_gain (ref : Word) {n a : Nat} (h : n < a) :
    (wrap32 (max ref.toInt ((n * 65536 / a : Nat) : Int))).toInt =
      max ref.toInt ((n * 65536 / a : Nat) : Int) := by
  have hb := toInt_bounds ref
  have : n * 65536 / a < 65536 := Nat.div_lt_of_lt_mul (by nlinarith)
  apply wrap32_toInt <;> omega

/-- The gain of the decay line, with no wrap. -/
theorem decay_gain (sus : Word) {n a : Nat} (h : n ≤ a) :
    (wrap32 (65536 - Int.tdiv ((65536 - sus.toInt) * n) a)).toInt =
      65536 - Int.tdiv ((65536 - sus.toInt) * n) a := by
  have hb := toInt_bounds sus
  have ht := tdiv_between (65536 - sus.toInt) h
  apply wrap32_toInt <;> omega

/-- The gain of the release line, with no wrap. -/
theorem release_gain (ref : Word) {n a : Nat} (h : n ≤ a) :
    (wrap32 (ref.toInt - Int.tdiv (ref.toInt * n) a)).toInt =
      ref.toInt - Int.tdiv (ref.toInt * n) a := by
  have hb := toInt_bounds ref
  have ht := tdiv_between ref.toInt h
  apply wrap32_toInt <;> omega
end

/-! ## The note stack -/

theorem mem_stackPush (l : List Data7) (n m : Data7) : m ∈ stackPush l n ↔ m ∈ l ∨ m = n := by
  unfold stackPush; split
  · next h => constructor
              · exact .inl
              · rintro (h' | rfl) <;> assumption
  · simp

theorem nodup_stackPush {l : List Data7} (n : Data7) (h : l.Nodup) : (stackPush l n).Nodup := by
  unfold stackPush; split
  · exact h
  · next hn => rw [List.nodup_append]; exact ⟨h, by simp, by simp; rintro a ha rfl; exact hn ha⟩

section
variable (c : Config) (p : Params) (n : Data7) (x : Voice)

@[simp] theorem voiceNoteOn_stack : (voiceNoteOn c p n x).stack = stackPush x.stack n := by
  simp only [voiceNoteOn]; split <;> rfl

@[simp] theorem voiceNoteOn_phase : (voiceNoteOn c p n x).phase = x.phase := by
  simp only [voiceNoteOn]; split <;> rfl

@[simp] theorem voiceNoteOff_stack :
    (voiceNoteOff c p n x).stack = x.stack.filter (fun m => m != n) := by
  simp only [voiceNoteOff]; split <;> rfl

@[simp] theorem voiceNoteOff_phase : (voiceNoteOff c p n x).phase = x.phase := by
  simp only [voiceNoteOff]; split <;> rfl
end

/-! ## Envelopes leave the rest of a voice alone -/

section
variable (x : Voice) (e : AdeUnit) (a : Ade)
@[simp] theorem voiceSetAde_stack : (voiceSetAde x e a).stack = x.stack := by cases e <;> rfl
@[simp] theorem voiceSetAde_phase : (voiceSetAde x e a).phase = x.phase := by cases e <;> rfl
end

section
variable (p : Params) (sh : Nat) (e : EnvUnit) (x : Voice)
@[simp] theorem envTrigger_stack : (envTrigger e x).stack = x.stack := by
  cases e <;> simp [envTrigger]
@[simp] theorem envTrigger_phase : (envTrigger e x).phase = x.phase := by
  cases e <;> simp [envTrigger]
@[simp] theorem envRetrigger_stack : (envRetrigger p e x).stack = x.stack := by
  cases e <;> simp [envRetrigger]
@[simp] theorem envRetrigger_phase : (envRetrigger p e x).phase = x.phase := by
  cases e <;> simp [envRetrigger]
@[simp] theorem envRelease_stack : (envRelease p e x).stack = x.stack := by
  cases e <;> simp [envRelease]
@[simp] theorem envRelease_phase : (envRelease p e x).phase = x.phase := by
  cases e <;> simp [envRelease]
@[simp] theorem envAdvance_stack : (envAdvance sh p e x).stack = x.stack := by
  cases e <;> simp [envAdvance]
@[simp] theorem envAdvance_phase : (envAdvance sh p e x).phase = x.phase := by
  cases e <;> simp [envAdvance]
end

/-! ## The mixed sample -/

/-- The channels in ascending order are the list of voices. -/
theorem map_voice_range {α : Type} (s : State) (f : Voice → α) (h : s.voices.length = s.cfg.nv) :
    (List.range s.cfg.nv).map (fun ch => f (voice s ch)) = s.voices.map f := by
  apply List.ext_getElem
  · simp [h]
  · intro i h1 h2
    have hi : i < s.voices.length := by simpa using h2
    simp [voice, List.getD, hi]

theorem foldl_fadd (l : List Word) (acc : Word) : l.foldl fadd acc = acc + l.sum := by
  induction l generalizing acc with
  | nil => simp
  | cons a l ih => simp [ih, fadd_eq, BitVec.add_assoc]

end Sys2Proof.Machine
end

