-- ==== Sys2Proof/Tests/Slice0.lean ====
section
/-! SUPPORT. Tests. Expected results come from spec/95_test_vectors.md and the rules named, never from
the model; the words of the decode tests are written out from spec/30_encoding.md R132, R137, R140,
R141. The `witness_` theorems show states and operands that meet the hypotheses of the statement they
are named after, at the edges of their ranges. -/

namespace Sys2Proof.Tests

open Sys2Proof Sys2Proof.Machine

/-! ## Small machines -/

/-- Two voices, a FIFO of two samples, a queue of two notifications. -/
def tiny : Config := { Config.default with nv := 2, fifoDepth := 2, notifyDepth := 2 }

/-- `tiny` after reset. -/
def s0 : State := State.powerOn tiny

/-- The state after an instruction. -/
def after (i : Instr) (s : State) : State :=
  match exec i s with
  | .next t => t
  | .fault f => nomatch f
  | .refused _ => s

/-- What an instruction answers on its port. -/
def reply (i : Instr) (s : State) : Response := (after i s).response

/-- `s0` with a note 60 on voice 0. -/
def sOn : State := after (.midiNoteOn 0 60 100) s0

/-- `sOn` with a note 90 on voice 1: no voice is idle. -/
def sBusy : State := after (.midiNoteOn 0 90 100) sOn

/-- `s0` with a full FIFO and a full notification queue. -/
def sFull : State := { s0 with fifo := [9, 0xFFFFFFFF], nq := [.mix, .vca .attack] }

/-- `s0` with CC 74 bound to VCA.ATTACK. -/
def sCc : State := { s0 with ccMap := s0.ccMap.set 74 (some (.vca .attack)) }

/-- `s0` with a velocity of 0 meaning NoteOff. -/
def sVel : State := { sOn with cfg := { tiny with vel0IsNoteOff := true } }

/-- `s0` with parameter `p` written. -/
def sPar (p : Pid) (x : Word) : State := { s0 with params := paramWrite s0.params p x }

/-- `s0` with voice 0 replaced. -/
def sVoice (x : Voice) : State := setVoice s0 0 x

/-- Feedback enabled on operator A with FEEDBACK 16.0 (R205). -/
def sFb : State := { sPar .feedback 0x100000 with fbOwner := ⟨true, .a⟩ }

/-! ## WellFormed refuses ill-formed instructions, check by check -/

theorem test_wf_nibble : (Instr.midiOther 0x9F 1 2).wf 4 = false ∧ (Instr.midiOther 0x80 1 2).wf 4 = false ∧
    (Instr.midiOther 0xB0 1 2).wf 4 = false ∧ (Instr.midiOther 0xA0 1 2).wf 4 = true := by decide

theorem test_wf_unit : (Instr.oprd 0 4).wf 4 = false ∧ (Instr.etrig 0 3).wf 4 = false ∧
    (Instr.eidx 0 2).wf 4 = false ∧ (Instr.erdref 0 1).wf 4 = false ∧ (Instr.prd 5 0).wf 4 = false ∧
    (Instr.cntrd 6).wf 4 = false ∧ (Instr.cfgrd 6).wf 4 = false ∧ (Instr.erdref 0 2).wf 4 = true := by
  decide

theorem test_wf_voice : (Instr.vpitch 4).wf 4 = false ∧ (Instr.vpitch 3).wf 4 = true ∧
    (Instr.oprd 255 0).wf 255 = false := by decide

/-! ## Decoding, every constructor -/

theorem test_decode_fpu :
    decode (.cmd 0b00000000_00000000_00000000_00000000 0x18000 0x8000) = .ok (.nop) ∧
    decode (.cmd 0b00000001_00000000_00000000_00000000 0x18000 0x8000) = .ok (.fmul 0x18000 0x8000) ∧
    decode (.cmd 0b00000010_00000000_00000000_00000000 0x18000 0x8000) = .ok (.fadd 0x18000 0x8000) ∧
    decode (.cmd 0b00000011_00000000_00000000_00000000 0x18000 0x8000) = .ok (.fsub 0x18000 0x8000) ∧
    decode (.cmd 0b00000100_00000000_00000000_00000000 0x18000 0x8000) = .ok (.fshr 0x18000 0x8000) ∧
    decode (.cmd 0b00000101_00000000_00000000_00000000 0x18000 0x8000) = .ok (.fto16 0x18000) ∧
    decode (.cmd 0b00000110_00000000_00000000_00000000 0x18000 0x8000) = .ok (.fxmix 0x18000 0x8000) := by
  decide

theorem test_decode_opu :
    decode (.cmd 0b00010000_00000011_00000010_00000000 0x18000 0x8000) = .ok (.oprot 3 2 0x18000 0x8000) ∧
    decode (.cmd 0b00010001_00000011_00000010_00000000 0x18000 0x8000) = .ok (.oprd 3 2) ∧
    decode (.cmd 0b00010010_00000011_00000010_00000000 0x18000 0x8000) = .ok (.opwr 3 2 0x18000) := by
  decide

theorem test_decode_egu :
    decode (.cmd 0b00100000_00000011_00000010_00000000 0x18000 0x8000) = .ok (.etrig 3 2) ∧
    decode (.cmd 0b00100001_00000011_00000010_00000000 0x18000 0x8000) = .ok (.eretrig 3 2) ∧
    decode (.cmd 0b00100010_00000011_00000010_00000000 0x18000 0x8000) = .ok (.erel 3 2) ∧
    decode (.cmd 0b00100011_00000011_00000010_00000000 0x18000 0x8000) = .ok (.escale 3 2 0x18000) ∧
    decode (.cmd 0b00100100_00000011_00000001_00000000 0x18000 0x8000) = .ok (.eidx 3 1) ∧
    decode (.cmd 0b00100101_00000011_00000010_00000000 0x18000 0x8000) = .ok (.erdcur 3 2) ∧
    decode (.cmd 0b00100110_00000011_00000010_00000000 0x18000 0x8000) = .ok (.erdst 3 2) ∧
    decode (.cmd 0b00100111_00000011_00000010_00000000 0x18000 0x8000) = .ok (.erdcnt 3 2) ∧
    decode (.cmd 0b00101000_00000011_00000010_00000000 0x18000 0x8000) = .ok (.erdref 3 2) := by
  decide

theorem test_decode_vau :
    decode (.cmd 0b00110000_00000011_00000000_00000000 0x18000 0x8000) = .ok (.vout 3 0x18000) ∧
    decode (.cmd 0b00110001_00000011_00000000_00000000 0x18000 0x8000) = .ok (.vpitch 3) ∧
    decode (.cmd 0b00110010_00000011_00000000_00000000 0x18000 0x8000) = .ok (.vcur 3) ∧
    decode (.cmd 0b00110011_00000011_00000000_00000000 0x18000 0x8000) = .ok (.vslen 3) ∧
    decode (.cmd 0b00110100_00000011_00000000_00000000 0x18000 0x8000) = .ok (.vstk 3 0x18000) ∧
    decode (.cmd 0b00110101_00000000_00000000_00000000 0x18000 0x8000) = .ok (.vmap 0x18000) := by
  decide

theorem test_decode_mix :
    decode (.cmd 0b01000000_00000000_00000000_00000000 0x18000 0x8000) = .ok (.mixpush) ∧
    decode (.cmd 0b01000001_00000011_00000000_00000000 0x18000 0x8000) = .ok (.mlvlwr 3 0x18000) ∧
    decode (.cmd 0b01000010_00000011_00000000_00000000 0x18000 0x8000) = .ok (.mlvlrd 3) ∧
    decode (.cmd 0b01000011_00000011_00000000_00000000 0x18000 0x8000) = .ok (.mvoutrd 3) ∧
    decode (.cmd 0b01000100_00000000_00000000_00000000 0x18000 0x8000) = .ok (.fifolvl) := by
  decide

theorem test_decode_prf :
    decode (.cmd 0b01010000_00000000_00000100_00000000 0x18000 0x8000) = .ok (.prd 4 0x18000) ∧
    decode (.cmd 0b01010001_00000000_00000000_00000000 0x18000 0x8000) = .ok (.pwr 0x18000 0x8000) ∧
    decode (.cmd 0b01010010_00000000_00000000_00000000 0x18000 0x8000) = .ok (.pkind 0x18000) ∧
    decode (.cmd 0b01010011_00000000_00000000_00000000 0x18000 0x8000) = .ok (.ccwr 0x18000 0x8000) ∧
    decode (.cmd 0b01010100_00000000_00000000_00000000 0x18000 0x8000) = .ok (.ccrd 0x18000) ∧
    decode (.cmd 0b01010101_00000000_00000000_00000000 0x18000 0x8000) = .ok (.npop) ∧
    decode (.cmd 0b01010110_00000000_00000000_00000000 0x18000 0x8000) = .ok (.papply 0x18000) ∧
    decode (.cmd 0b01010111_00000000_00000000_00000000 0x18000 0x8000) = .ok (.paprd) := by
  decide

theorem test_decode_sys :
    decode (.cmd 0b01100000_00000000_00000000_00000000 0x18000 0x8000) = .ok (.strd) ∧
    decode (.cmd 0b01100001_00000000_00000000_00000000 0x18000 0x8000) = .ok (.stclr 0x18000) ∧
    decode (.cmd 0b01100010_00000000_00000101_00000000 0x18000 0x8000) = .ok (.cntrd 5) ∧
    decode (.cmd 0b01100011_00000000_00000101_00000000 0x18000 0x8000) = .ok (.cntclr 5) ∧
    decode (.cmd 0b01100100_00000000_00000000_00000000 0x18000 0x8000) = .ok (.idrd) ∧
    decode (.cmd 0b01100101_00000000_00000101_00000000 0x18000 0x8000) = .ok (.cfgrd 5) := by
  decide

theorem test_decode_midi :
    decode (.midi 0b1001_0101 69 100) = .ok (.midiNoteOn 5 69 100) ∧
    decode (.midi 0b1000_1111 69 100) = .ok (.midiNoteOff 15 69 100) ∧
    decode (.midi 0b1011_0000 74 200) = .ok (.midiCc 0 74 200) ∧
    decode (.midi 0b1010_0000 1 2) = .ok (.midiOther 0xA0 1 2) ∧
    decode (.midi 0b0100_0101 1 2) = .ok (.midiOther 0x45 1 2) := by decide

theorem test_decode_audio_and_reset :
    decode .audioOut = .ok .pop ∧ decode .reset = .ok .reset ∧
    decodeBytes .audioOut [] = .ok .pop ∧ decodeBytes .reset [] = .ok .reset := by decide

/-- R101, R139: the command word's byte 0 comes first, then opa, then opb. -/
theorem test_decode_bytes :
    decodeBytes .cmd [0, 3, 1, 0x12, 0x44, 0xAC, 0, 0, 0, 0, 0, 0] = .ok (.opwr 1 3 0xAC44) ∧
    decodeBytes .cmd [0, 3, 1, 0x12] = .error .badLength ∧
    decodeBytes .midiIn [0x90, 69, 100] = .ok (.midiNoteOn 0 69 100) := by decide

/-- R135, R138: the ILLEGAL checks, in their order (spec/95_test_vectors.md section 2.8). -/
theorem test_decode_rejects :
    decode (.cmd 0x07000001 0 0) = .error .unknownOpcode ∧
    decode (.cmd 0x00010101 0 0) = .error .nonzeroZ ∧
    decode (.cmd 0x00010100 0 0) = .error .unusedV ∧
    decode (.cmd 0x01000100 0 0) = .error .unusedU ∧
    decode (.cmd 0x35010000 0 0) = .error .unusedV ∧
    decode (.cmd 0xFF000000 0 0) = .error .unknownOpcode := by decide

theorem test_table_words :
    decodeTableWord 96 0x000080000001800001000000 = some (.fmul 0x18000 0x8000) ∧
    decodeTableWord 32 0x31030000 = some (.vpitch 3) ∧
    decodeTableWord 24 0x904564 = some (.midiNoteOn 0 0x45 0x64) ∧
    decodeTableWord 0 0 = some .pop ∧ decodeTableWord 32 0x07000000 = none := by decide

theorem test_fetch_word_runs_first :
    step (s0.withFetchWord 32 0x64000000) = exec .idrd s0 ∧
    step (State.reset.withFetchWord 24 0xA00102) = exec (.midiOther 0xA0 1 2) State.reset := by
  exact ⟨rfl, rfl⟩

/-! ## Fixed point (spec/95_test_vectors.md section 2.1) -/

theorem test_fmul : reply (.fmul 0xFFFFFFFF 1) s0 = .cmd .ok 0xFFFFFFFF ∧
    reply (.fmul 0x7FFFFFFF 0x7FFFFFFF) s0 = .cmd .ok 0xFFFF0000 := by decide

theorem test_fadd : reply (.fadd 0x7FFFFFFF 1) s0 = .cmd .ok 0x80000000 := by decide

theorem test_fsub : reply (.fsub 0x10000 0x4000) s0 = .cmd .ok 0xC000 ∧
    reply (.fsub 0x80000000 1) s0 = .cmd .ok 0x7FFFFFFF := by decide

theorem test_fshr : reply (.fshr 0xFFFFFFFD 1) s0 = .cmd .ok 0xFFFFFFFE ∧
    reply (.fshr 0x12345678 0x24) s0 = .cmd .ok 0x01234567 := by decide

theorem test_fto16 : reply (.fto16 0x10000) s0 = .cmd .ok 0x7FFF ∧
    reply (.fto16 0xFFFEFFFF) s0 = .cmd .ok 0xFFFF8000 := by decide

theorem test_fxmix : reply (.fxmix 0xFFFF0000 0x10000) s0 = .cmd .ok 0 ∧
    reply (.fxmix 0x10000 0x4000) (sPar .mix 0x20000) = .cmd .ok 0x2000 := by decide

/-! ## Operators (section 2.2) -/

theorem test_oprot_feedback :
    reply (.oprot 0 0 0x113A0000 0) sFb = .cmd .ok 0x96BD ∧
    (voice (after (.oprot 0 0 0x113A0000 0) sFb) 0).phase = ⟨4419, 0, 0, 0⟩ := by decide

theorem test_oprot_clamps_below_zero :
    (voice (after (.oprot 0 3 0 0xFFEC0000) (sVoice { Voice.initial with phase := ⟨7, 8, 9, 10⟩ })) 0).phase =
      ⟨7, 8, 9, 0⟩ := by decide

theorem test_oprd : reply (.oprd 0 2) (sVoice { Voice.initial with phase := ⟨7, 8, 440, 10⟩ }) =
    .cmd .ok 440 := by decide

theorem test_opwr : (voice (after (.opwr 1 0 44099) s0) 1).phase = ⟨44099, 0, 0, 0⟩ ∧
    reply (.opwr 1 0 44100) s0 = .cmd .range 0 := by decide

/-! ## Envelopes (section 2.3) -/

theorem test_etrig : (voice (after (.etrig 0 2) (sVoice { Voice.initial with vca := ⟨.release, 24576, 5, 7⟩ })) 0).vca =
    ⟨.attack, 24576, 0, 24576⟩ := by decide

theorem test_eretrig : after (.eretrig 0 0) sOn = { sOn with response := .cmd .ok 0 } := by decide

theorem test_erel :
    (voice (after (.erel 0 0) { sPar (.ade .envA .gated) 1 with
      voices := [{ Voice.initial with envA := ⟨.attack, 20480, 10⟩ }] }) 0).envA = ⟨.decay, 20480, 0⟩ := by
  decide

/-- The 32nd Scale after Trigger reaches 1.0 and enters DECAY. -/
theorem test_escale_ade :
    (voice (after (.escale 0 0 0x10000) (sVoice { Voice.initial with envA := ⟨.attack, 63488, 31⟩ })) 0).envA =
      ⟨.decay, 65536, 0⟩ := by decide

/-- Decay sample 4409 of the reset patch gives 49156. -/
theorem test_escale_vca :
    (voice (after (.escale 0 2 0x10000) (sVoice { Voice.initial with vca := ⟨.decay, 0, 4408, 0⟩ })) 0).vca =
      ⟨.decay, 49156, 4409, 0⟩ := by decide

theorem test_eidx : reply (.eidx 0 0) sOn = .cmd .ok 0x800 := by decide

theorem test_envelope_reads :
    reply (.erdcur 0 2) (sVoice { Voice.initial with vca := ⟨.release, 12, 4409, 0xC000⟩ }) = .cmd .ok 12 ∧
    reply (.erdst 0 2) (sVoice { Voice.initial with vca := ⟨.release, 12, 4409, 0xC000⟩ }) = .cmd .ok 4 ∧
    reply (.erdcnt 0 2) (sVoice { Voice.initial with vca := ⟨.release, 12, 4409, 0xC000⟩ }) = .cmd .ok 4409 ∧
    reply (.erdref 0 2) (sVoice { Voice.initial with vca := ⟨.release, 12, 4409, 0xC000⟩ }) =
      .cmd .ok 0xC000 := by decide

/-! ## Patch (section 2.4) -/

theorem test_prd : reply (.prd 4 2) s0 = .cmd .ok 0x8000 ∧ reply (.prd 3 0x100) s0 = .cmd .badId 0 ∧
    (after (.prd 3 2) s0).log.lastErr = 0x5004 := by decide

theorem test_pwr : (after (.pwr 0xA0 0x12345) s0).params.vca.attack = 0x2345 ∧
    (after (.pwr 0xA0 0x12345) s0).nq = [.vca .attack] := by decide

theorem test_pwr_full_queue_drops : (after (.pwr 0x26 3) sFull).params.envA.gated = true ∧
    (after (.pwr 0x26 3) sFull).nq = [.mix, .vca .attack] ∧
    (after (.pwr 0x26 3) sFull).log.cntNotifyDrop = 1 := by decide

theorem test_pkind : reply (.pkind 0xA2) s0 = .cmd .ok 4 ∧ reply (.pkind 0x103) s0 = .cmd .ok 0 := by
  decide

/-- Binding VCA.ATTACK to CC 5 takes it from CC 74. -/
theorem test_ccwr : ccBinding (after (.ccwr 5 0x1A0) sCc) 5 = some (.vca .attack) ∧
    ccBinding (after (.ccwr 5 0x1A0) sCc) 74 = none ∧
    reply (.ccwr 128 0x1FF) s0 = .cmd .range 0 := by decide

theorem test_ccrd : reply (.ccrd 74) sCc = .cmd .ok 0x1A0 := by decide

theorem test_npop : reply .npop s0 = .cmd .ok 0 ∧ reply .npop sFull = .cmd .ok 0x102 ∧
    (after .npop sFull).nq = [.vca .attack] := by decide

theorem test_papply : (after (.papply 6) (sPar .algorithm 0x103)).fbOwner = ⟨true, .b2⟩ ∧
    reply .paprd (after (.papply 6) (sPar .algorithm 0x103)) = .cmd .ok 0x306 := by decide

/-! ## Voices and MIDI (section 2.5) -/

/-- NoteOn 65 against current notes 60 and 90 goes to voice 0, which retriggers. -/
theorem test_note_on_nearest :
    (voice (after (.midiNoteOn 0 65 100) sBusy) 0).stack = [60, 65] ∧
    reply (.vpitch 0) (after (.midiNoteOn 0 65 100) sBusy) = .cmd .ok 0x015D3A6D := by decide

theorem test_note_on_clamps : (voice (after (.midiNoteOn 15 200 255) s0) 0).stack = [127] := by decide

theorem test_note_off_falls_back :
    (voice (after (.midiNoteOff 0 65 0) (after (.midiNoteOn 0 65 100) sBusy)) 0).stack = [60] ∧
    reply (.vpitch 0) (after (.midiNoteOff 0 65 0) (after (.midiNoteOn 0 65 100) sBusy)) =
      .cmd .ok 0x0105A025 := by decide

theorem test_note_off_without_owner :
    (after (.midiNoteOff 0 60 0) s0).log.lastDiag = 0x003C8003 := by decide

/-- 200 clamps to 127, and 127 << 9 = 65024. -/
theorem test_midi_cc : (after (.midiCc 0 74 200) sCc).params.vca.attack = 65024 ∧
    (after (.midiCc 3 7 0) s0).log.lastDiag = 0x0007B302 := by decide

theorem test_midi_other : (after (.midiOther 0x45 1 2) s0).log.lastDiag = 0x00014501 := by decide

theorem test_voice_reads : reply (.vcur 0) sOn = .cmd .ok 60 ∧ reply (.vslen 0) sOn = .cmd .ok 1 ∧
    reply (.vstk 0 0) sOn = .cmd .ok 60 ∧ reply (.vstk 0 1) sOn = .cmd .range 0 ∧
    reply (.vmap 60) sOn = .cmd .ok 0x100 ∧ reply (.vmap 128) sOn = .cmd .range 0 := by decide

/-! ## Mixer and output (section 2.6) -/

/-- The first gain of the reset patch's attack is 148: 4106 times it is 9. -/
theorem test_vout : reply (.vout 0 4106) sOn = .cmd .ok 9 ∧
    reply (.vout 0 4106) (after (.vout 0 4106) sOn) = .cmd .hazard 0 := by decide

/-- With NV = 2 a full-scale channel at LEVEL 0.5 gives 65536 / 2 / 2. -/
theorem test_mixpush :
    (after .mixpush (sVoice { Voice.initial with vout := 65536, level := 0x8000, rendered := true })).fifo =
      [16384] ∧
    reply .mixpush sFull = .cmd .busy 0 ∧ (after .mixpush sFull).log = s0.log := by decide

theorem test_mixer_registers : (voice (after (.mlvlwr 1 5) s0) 1).level = 5 ∧
    reply (.mlvlrd 1) s0 = .cmd .ok 0x10000 ∧ reply (.mvoutrd 0) (after (.vout 0 4106) sOn) = .cmd .ok 9 ∧
    reply .fifolvl sFull = .cmd .ok 2 := by decide

theorem test_pop : reply .pop sFull = .audio 4 false ∧ (after .pop sFull).fifo = [0xFFFFFFFF] ∧
    reply .pop s0 = .audio 0 true ∧ (after .pop s0).log.cntUnderrun = 1 := by decide

/-! ## System (sections 2.7 to 2.9) -/

theorem test_nop : after .nop sOn = { sOn with response := .cmd .ok 0 } := by decide

theorem test_strd : reply .strd s0 = .cmd .ok 0x10 ∧ reply .strd (after .pop s0) = .cmd .ok 0x11 ∧
    reply .strd sFull = .cmd .ok 0x60 := by decide

theorem test_stclr : reply .strd (after (.stclr 0xF) (after .pop s0)) = .cmd .ok 0x10 ∧
    reply .strd (after (.stclr 0xE) (after .pop s0)) = .cmd .ok 0x11 := by decide

theorem test_cntrd_cntclr :
    reply (.cntrd 5) (after (.midiOther 0xA0 1 2) s0) = .cmd .ok 0x0001A001 ∧
    reply (.cntrd 1) (after (.midiOther 0xA0 1 2) s0) = .cmd .ok 1 ∧
    reply (.cntrd 0) (after (.cntclr 0) (after .pop s0)) = .cmd .ok 0 := by decide

theorem test_idrd : reply .idrd s0 = .cmd .ok 0x464D0001 := by decide

theorem test_cfgrd : reply (.cfgrd 0) State.reset = .cmd .ok 44100 ∧
    reply (.cfgrd 3) State.reset = .cmd .ok 16 ∧ reply (.cfgrd 5) State.reset = .cmd .ok 16384 := by decide

theorem test_reset : after .reset sBusy = s0 ∧ reply (.mlvlrd 0) (after .reset sBusy) = .cmd .ok 0x10000 := by
  decide

/-- R135, R138: an unknown opcode ends with ILLEGAL and records 0x0701. -/
theorem test_step_illegal :
    step (deliver s0 (.cmd 0x07000001 0 0)) = .next (afterError s0 7 .illegal) ∧
    (afterError s0 7 .illegal).log.lastErr = 0x701 := ⟨rfl, by decide⟩

/-- R203: spot values of the nominal sine ROM (section 2.2). -/
theorem test_sine_rom : [1, 4400, 11025, 22050, 32667, 33075, 44099].map (sineNominal 44100) =
    [9, 38446, 65536, 0, 0xFFFF006F, 0xFFFF0000, 0xFFFFFFF7] := by decide

/-! ## Witnesses -/

theorem witness_DecodeOfEncodeIsIdentity :
    (Instr.midiOther 0x7F 1 2).encodable = true ∧ (Instr.midiOther 0xC0 1 2).encodable = true ∧
    (Instr.midiNoteOn 15 255 255).encodable = true ∧ (Instr.oprot 255 255 1 2).encodable = true := by
  decide

theorem witness_EncodeOfDecodeIsTheRequest :
    decode (.cmd 0x11FFFF00 5 6) = .ok (.oprd 0xFF 0xFF) ∧
    decode (.midi 0xFF 1 2) = .ok (.midiOther 0xFF 1 2) ∧
    decode .audioOut = .ok .pop ∧ decode .reset = .ok .reset := by decide

theorem witness_StepRunsTheDecodedInstruction :
    (deliver sFull .audioOut).pending = .audioOut :: [] ∧ decode .audioOut = .ok .pop ∧
    (deliver s0 (.cmd 0x01000000 1 2)).pending = .cmd 0x01000000 1 2 :: [] ∧
    decode (.cmd 0x01000000 1 2) = .ok (.fmul 1 2) := by decide

theorem witness_UndecodableCommandAnswersIllegal :
    (deliver s0 (.cmd (0x07#8 ++ 0#8 ++ 0#8 ++ 1#8) 0 0)).pending =
      [.cmd (0x07#8 ++ 0#8 ++ 0#8 ++ 1#8) 0 0] ∧
    ∀ i, decode (.cmd (0x07#8 ++ 0#8 ++ 0#8 ++ 1#8) 0 0) ≠ .ok i := by
  refine ⟨by decide, fun i h => ?_⟩
  have hd : decode (.cmd (0x07#8 ++ 0#8 ++ 0#8 ++ 1#8) 0 0) = .error .unknownOpcode := by decide
  rw [hd] at h
  cases h

theorem witness_EachStepTakesOneTransaction :
    step s0 = .next s0 ∧ s0.pending = [] ∧
    step (deliver sFull .audioOut) = .next (after .pop sFull) := ⟨rfl, rfl, rfl⟩

theorem tiny_legal : tiny.Legal where
  sr_range := by decide
  nv_range := by decide
  fifo_range := by decide
  notify_range := by decide
  shift_range := by decide
  sine_size := by intro t h; cases h
  note_size := by intro t h; cases h
  cc_size := List.length_replicate
  cc_distinct := List.pairwise_replicate.mpr (.inr (.inl rfl))

theorem s0_inv : s0.Inv where
  cfg_legal := tiny_legal
  voice_count := by decide
  phase_in_rom := by
    intro x hx u
    rw [(List.mem_replicate.mp hx).2]
    cases u <;> decide
  stack_distinct := by
    intro x hx
    rw [(List.mem_replicate.mp hx).2]
    exact List.nodup_nil
  note_count := List.length_replicate
  owner_holds_note := by
    intro n v hv
    have h : noteOwner s0 n = none := by
      simp [noteOwner, s0, State.powerOn, List.getD, -List.reduceReplicate]
    rw [h] at hv
    cases hv
  cc_count := List.length_replicate
  cc_distinct := tiny_legal.cc_distinct
  fifo_bound := by decide
  nq_bound := by decide
  lastErr_reserved := by decide
  lastDiag_reserved := by decide

theorem witness_EveryStepKeepsTheInvariant :
    (deliver s0 (.midi 0x90 60 100)).Inv ∧
    step (deliver s0 (.midi 0x90 60 100)) = .next (after (.midiNoteOn 0 60 100) s0) := by
  refine ⟨?_, rfl⟩
  have h := s0_inv
  exact ⟨h.cfg_legal, h.voice_count, h.phase_in_rom, h.stack_distinct, h.note_count,
    h.owner_holds_note, h.cc_count, h.cc_distinct, h.fifo_bound, h.nq_bound, h.lastErr_reserved,
    h.lastDiag_reserved⟩

theorem witness_ResetMeetsTheInvariant : tiny.Legal := tiny_legal

/-- An operand error, the flow control BUSY, and a word that stands for no instruction. -/
theorem witness_ErrorsChangeOnlyTheLog :
    step (deliver sOn (.cmd 0x35000000 128 0)) = .next (after (.vmap 128) sOn) ∧
    reply (.vmap 128) sOn = .cmd .range 0 ∧
    step (deliver sFull (.cmd 0x40000000 0 0)) = .next (after .mixpush sFull) ∧
    reply .mixpush sFull = .cmd .busy 0 ∧
    step (deliver s0 (.cmd 0xFF000000 0 0)) = .next (afterError s0 0xFF .illegal) ∧
    (afterError s0 0xFF .illegal).response = .cmd .illegal 0 :=
  ⟨rfl, by decide, rfl, by decide, rfl, by decide⟩

/-- One instruction for each status, and for RANGE one for each reason. -/
theorem witness_StatusesOfEachCommand :
    reply .mixpush sFull = .cmd .busy 0 ∧
    reply (.vout 0 1) (after (.vout 0 1) s0) = .cmd .hazard 0 ∧
    reply (.prd 3 2) s0 = .cmd .kind 0 ∧ reply (.prd 0 3) s0 = .cmd .badId 0 ∧
    reply (.pwr 0x100 5) s0 = .cmd .badId 0 ∧ reply (.ccwr 5 0x103) s0 = .cmd .badId 0 ∧
    reply (.vpitch 2) s0 = .cmd .range 0 ∧ reply (.cntrd 6) s0 = .cmd .range 0 ∧
    reply (.vmap 128) s0 = .cmd .range 0 ∧ reply (.ccwr 128 0) s0 = .cmd .range 0 ∧
    reply (.ccrd 128) s0 = .cmd .range 0 ∧ reply .idrd s0 = .cmd .ok 0x464D0001 := by decide

theorem witness_VoiceOrUnitOutOfRangeAnswersRange :
    (Instr.oprd 2 9).voiceOk s0.cfg.nv = false ∧
    (Instr.oprd 1 4).voiceOk s0.cfg.nv = true ∧ (Instr.oprd 1 4).unitOk = false ∧
    (Instr.erdref 0 1).voiceOk s0.cfg.nv = true ∧ (Instr.erdref 0 1).unitOk = false ∧
    (Instr.cfgrd 6).voiceOk s0.cfg.nv = true ∧ (Instr.cfgrd 6).unitOk = false := by decide

theorem witness_ConfigurationNeverChanges :
    step (deliver sFull .reset) = .next (after .reset sFull) := rfl

theorem witness_OnlyPwrCcAndResetWriteParameters :
    step (deliver s0 (.cmd 0x51000000 2 5)) = .next (after (.pwr 2 5) s0) ∧
    step (deliver sCc (.midi 0xB0 74 64)) = .next (after (.midiCc 0 74 64) sCc) ∧
    step (deliver (sPar .mix 0) .reset) = .next (after .reset (sPar .mix 0)) ∧
    (after (.pwr 2 5) s0).params ≠ s0.params ∧ (after (.midiCc 0 74 64) sCc).params ≠ sCc.params ∧
    (after .reset (sPar .mix 0)).params ≠ (sPar .mix 0).params :=
  ⟨rfl, rfl, rfl, by decide⟩

theorem witness_OnlyPapplyAndResetWriteTheLatch :
    step (deliver s0 (.cmd 0x56000000 7 0)) = .next (after (.papply 7) s0) ∧
    step (deliver sFb .reset) = .next (after .reset sFb) ∧
    (after (.papply 7) s0).fbOwner ≠ s0.fbOwner ∧ (after .reset sFb).fbOwner ≠ sFb.fbOwner ∧
    (after (.papply 0) (sPar .algorithm 3)).algActive ≠ (sPar .algorithm 3).algActive :=
  ⟨rfl, rfl, by decide⟩

theorem witness_ReadsChangeNothing :
    reply (.oprd 1 3) s0 = .cmd .ok 0 ∧ reply (.erdref 1 2) s0 = .cmd .ok 0 ∧
    reply (.vstk 0 0) sOn = .cmd .ok 60 ∧ reply (.vmap 127) s0 = .cmd .ok 0 ∧
    reply (.ccrd 127) s0 = .cmd .ok 0 ∧ reply (.prd 4 2) s0 = .cmd .ok 0x8000 ∧
    reply (.cntrd 5) s0 = .cmd .ok 0 ∧ reply (.cfgrd 5) s0 = .cmd .ok 32768 ∧
    reply .nop s0 = .cmd .ok 0 := by decide

theorem witness_FmulStaysWithinFullScale :
    (0x10000 : Word).toInt.natAbs ≤ 65536 ∧ (0xFFFF0000 : Word).toInt.natAbs ≤ 65536 := by decide

theorem witness_Fto16ClipsThenHalves :
    65535 ≤ (0xFFFF : Word).toInt ∧ (0xFFFF0000 : Word).toInt ≤ -65536 ∧
    -65536 ≤ (0xFFFFFFFD : Word).toInt ∧ (0xFFFFFFFD : Word).toInt ≤ 65535 := by decide

theorem witness_FxmixClampsTheMix :
    (sPar .mix 0).params.mix.toInt ≤ 0 ∧ 65536 ≤ (sPar .mix 0x10000).params.mix.toInt ∧
    0 ≤ s0.params.mix.toInt ∧ s0.params.mix.toInt ≤ 65536 := by decide

/-- Voice 1 is the last of the two; phase 44099 is the last entry; one step wraps to entry 0. -/
theorem witness_OprotMovesThePhaseAndReadsTheRom :
    (1 : Byte).toNat < s0.cfg.nv ∧ s0.voices[(1 : Byte).toNat]? = some Voice.initial ∧
    (fmul 0x10000 (perOpGet s0.params.ratio .c) + 0).toInt / 65536 = 1 ∧
    ¬ (s0.fbOwner = ⟨true, .c⟩ ∧ s0.params.feedback ≠ 0) ∧
    (if ((44099 : Nat) : Int) + 1 < 0 then 0 else ((((44099 : Nat) : Int) + 1) % s0.cfg.sr).toNat) = 0 ∧
    sFb.voices[(0 : Byte).toNat]? = some Voice.initial ∧ sFb.fbOwner = ⟨true, .a⟩ ∧
    sFb.params.feedback ≠ 0 ∧
    (fmul (sineAt sFb.cfg 4410) sFb.params.feedback).toInt / 65536 = 9 := by decide

theorem witness_OprotPitchIsTheIntegerFrequency :
    (1 : Byte).toNat < s0.cfg.nv ∧ s0.voices[(1 : Byte).toNat]? = some Voice.initial ∧
    perOpGet s0.params.ratio .b1 = 0x10000 ∧ s0.fbOwner.en = false ∧ 0 ≤ (0x7FFFFFFF : Word).toInt := by
  decide

theorem witness_OprdAndOpwrReachThePhase :
    (1 : Byte).toNat < s0.cfg.nv ∧ s0.voices[(1 : Byte).toNat]? = some Voice.initial ∧
    (44099 : Word).toNat < s0.cfg.sr ∧ s0.cfg.sr ≤ (44100 : Word).toNat := by decide

theorem witness_TriggerRetriggerAndRelease :
    (0 : Byte).toNat < sOn.cfg.nv ∧ sOn.voices[(0 : Byte).toNat]? = some (voice sOn 0) ∧
    (adeParams (sPar (.ade .envB .retrigger) 1).params .envB).retrigger = true ∧
    (adeParams (sPar (.ade .envB .gated) 1).params .envB).gated = true ∧
    (sPar (.vca .retrigger) 1).params.vca.retrigger = true := by decide

/-- Both sides of the ramp's end: 31 samples fall short of 1.0, 32 reach it; and the saturated
counter. -/
theorem witness_EscaleStepsAnAde :
    (0 : Byte).toNat < sOn.cfg.nv ∧ sOn.voices[(0 : Byte).toNat]? = some (voice sOn 0) ∧
    (voiceAde (voice sOn 0) .envA).state = .attack ∧ satSucc 30 = 31 ∧
    ¬ 65536 * max (adeParams sOn.params .envA).attack.toNat 1 ≤ 31 * 2 ^ sOn.cfg.adeShift ∧
    65536 * max (adeParams sOn.params .envA).attack.toNat 1 ≤ 32 * 2 ^ sOn.cfg.adeShift ∧
    satSucc 0xFFFFFFFF = 0xFFFFFFFF := by decide

/-- Both sides of the attack's end at the reset patch: A = 441. -/
theorem witness_EscaleStepsTheVca :
    (0 : Byte).toNat < sOn.cfg.nv ∧ sOn.voices[(0 : Byte).toNat]? = some (voice sOn 0) ∧
    (voice sOn 0).vca.state = .attack ∧ ¬ max sOn.params.vca.attack.toNat 1 ≤ 440 ∧
    max sOn.params.vca.attack.toNat 1 ≤ satSucc 440 := by decide

theorem witness_EidxScalesTheIndexRegister : (1 : Byte).toNat < s0.cfg.nv := by decide

theorem witness_EnvelopeReadsAnswerTheRegisters :
    (0 : Byte).toNat < sOn.cfg.nv ∧ sOn.voices[(0 : Byte).toNat]? = some (voice sOn 0) := by decide

/-- One state for each clause; the last k of each ramp is its length less 1. -/
theorem witness_AdsrCourseTakesItsSampleCounts :
    (voice sOn 0).vca.n = 0 ∧ (voice sOn 0).vca.state = .attack ∧
    440 < max VcaParams.default.attack.toNat 1 ∧
    (⟨.decay, 0x10000, 0, 0⟩ : Adsr).n = 0 ∧ 4409 < max VcaParams.default.decay.toNat 1 ∧
    (⟨.sustain, 0xC000, 0, 0⟩ : Adsr).n = 0 ∧
    (adsrRelease ⟨.sustain, 0xC000, 9, 0⟩).n = 0 ∧
    (adsrRelease ⟨.sustain, 0xC000, 9, 0⟩).state = .release ∧
    4409 < max VcaParams.default.release.toNat 1 ∧ Voice.initial.vca.n = 0 ∧
    Voice.initial.vca.state = .complete := by decide

theorem witness_AdsrRetriggerNeverClicksDown :
    (0x10000 : Word).toInt ≤ 65536 ∧ 440 < max VcaParams.default.attack.toNat 1 := by decide

/-- The last id of the table; and an id between two of the table, and one above 255, that are not in
it. -/
theorem witness_ParameterSpaceIsTheTable :
    (0xA7 : Word).toNat = 0xA7 ∧
    ∀ k ∈ [0x00, 0x01, 0x02, 0x10, 0x50, 0x90, 0xD0, 0x20, 0x21, 0x24, 0x25, 0x26, 0x27, 0x60, 0x61, 0x64,
      0x65, 0x66, 0x67, 0xA0, 0xA1, 0xA2, 0xA3, 0xA7], (0x03 : Word).toNat ≠ k ∧ (0x1A7 : Word).toNat ≠ k := by
  decide

theorem witness_PrdChecksIdThenKind :
    (4 : Byte).toNat ≤ 4 ∧ pidOfWord 0x100 = none ∧ pidOfWord 2 = some .mix ∧
    (4 : Byte).toNat = kindCode (pidKind .mix) ∧ (3 : Byte).toNat ≠ kindCode (pidKind .mix) := by decide

/-- A queue with room for one more, and a full one. -/
theorem witness_PwrStoresMaskedAndNotifies :
    pidOfWord 0x100 = none ∧ pidOfWord 0x26 = some (.ade .envA .gated) ∧
    (after (.pwr 2 0) s0).nq.length < s0.cfg.notifyDepth ∧ sFull.cfg.notifyDepth ≤ sFull.nq.length := by
  decide

theorem witness_CcwrBindsOneCcPerRegister :
    sCc.ccMap.length = 128 ∧ 128 ≤ (128 : Word).toNat ∧ (127 : Word).toNat < 128 ∧ (0x103 : Word).getLsbD 8 = true ∧
    pidOfWord (0x103 &&& 0xFF) = none ∧
    pidOfWord (0x1A0 &&& 0xFF) = some (.vca .attack) ∧ (0x0A0 : Word).getLsbD 8 = false ∧
    sCc.ccMap[(74 : Word).toNat]? = some (some (.vca .attack)) :=
  ⟨List.length_set.trans List.length_replicate, by decide⟩

/-- A bound register of each kind, at the values about 64. -/
theorem witness_MidiCcWritesTheConvertedValue :
    ccBinding s0 127 = none ∧ ccBinding sCc 74 = some (.vca .attack) ∧
    pidKind (.vca .attack) = .u16 ∧ (65024 : Word).toNat = 127 * 512 ∧
    pidKind .mix = .fp32 ∧ (0xFFFFFF00 : Word).toInt = (63 - 64) * 256 ∧
    pidKind (.vca .retrigger) = .bool ∧ (1 : Word).toNat = (if 64 ≤ 64 then 1 else 0) ∧
    pidKind .algorithm = .byte ∧ (127 : Word).toNat = 127 := by decide

theorem witness_NpopTakesTheOldestNotification :
    s0.nq = [] ∧ sFull.nq = .mix :: [.vca .attack] := by decide

/-- An idle voice that is not the first; none idle, with the nearest, and a tie. -/
theorem witness_AllocatorPrefersIdleThenNearest :
    curNote (voice sOn 1) = 0 ∧ curNote (voice sOn 0) ≠ 0 ∧ allocate sOn 65 = 1 ∧
    (∀ v < sBusy.cfg.nv, curNote (voice sBusy v) ≠ 0) ∧ allocate sBusy 65 = 0 ∧
    allocate sBusy 75 = 0 ∧ allocate sBusy 76 = 1 := by decide

/-- A note that is the first of its voice, and one that is not. -/
theorem witness_NoteOnPlaysOnTheAllocatedVoice :
    (127 : Data7).val = min (255 : Byte).toNat 127 ∧ s0.cfg.vel0IsNoteOff = false ∧
    s0.voices[allocate s0 127]? = some Voice.initial ∧
    sBusy.voices[allocate sBusy 65]? = some (voice sBusy 0) ∧ (voice sBusy 0).stack = [60] ∧
    sVel.cfg.vel0IsNoteOff = true ∧ (1 : Byte) ≠ 0 ∧
    sVel.voices[allocate sVel 5]? = some (voice sVel 1) := by decide

/-- A note whose removal empties the stack, and one below which another is held. -/
theorem witness_NoteOffReleasesTheOwner :
    (60 : Data7).val = min (60 : Byte).toNat 127 ∧ sOn.noteMap[(60 : Data7).val]? = some (some 0) ∧
    sOn.voices[(0 : Byte).toNat]? = some (voice sOn 0) ∧ (voice sOn 0).stack = [60] ∧
    (after (.midiNoteOn 0 65 100) sBusy).noteMap[(65 : Data7).val]? = some (some 0) ∧
    (after (.midiNoteOn 0 65 100) sBusy).voices[(0 : Byte).toNat]? =
      some (voice (after (.midiNoteOn 0 65 100) sBusy) 0) := by decide

theorem witness_IgnoredMidiRecordsADiagnostic :
    (127 : Data7).val = min (200 : Byte).toNat 127 ∧ noteOwner s0 127 = none ∧
    noteOwner sVel 127 = none ∧ sVel.cfg.vel0IsNoteOff = true := by decide

theorem witness_VelocityIsIgnored :
    s0.cfg.vel0IsNoteOff = false ∧ sVel.cfg.vel0IsNoteOff = true ∧ (1 : Byte) ≠ 0 ∧
    noteOwner sVel (clampData 60) ≠ none ∧ noteOwner sVel (clampData 61) = none ∧
    127 ≤ (128 : Byte).toNat := by decide

theorem witness_VoiceReadsAnswerTheRegisters :
    (1 : Byte).toNat < s0.cfg.nv ∧ s0.voices[(1 : Byte).toNat]? = some Voice.initial ∧
    Voice.initial.stack = [] ∧ sOn.voices[(0 : Byte).toNat]? = some (voice sOn 0) ∧
    (voice sOn 0).stack = [] ++ [60] ∧ (voice sOn 0).stack[(0 : Word).toNat]? = some 60 ∧
    (voice sOn 0).stack.length ≤ (1 : Word).toNat ∧ s0.noteMap[(127 : Word).toNat]? = some none ∧
    sOn.noteMap[(60 : Word).toNat]? = some (some 0) ∧ 128 ≤ (128 : Word).toNat := by decide

theorem witness_VoutLatchesOncePerSample :
    (0 : Byte).toNat < sOn.cfg.nv ∧ sOn.voices[(0 : Byte).toNat]? = some (voice sOn 0) ∧
    (voice sOn 0).rendered = false ∧ (voice (after (.vout 0 1) sOn) 0).rendered = true := by decide

theorem witness_MixpushPushesTheAttenuatedSum :
    s0.voices.length = s0.cfg.nv ∧ 1 ≤ s0.cfg.nv ∧ s0.fifo.length ≠ s0.cfg.fifoDepth ∧
    sFull.voices.length = sFull.cfg.nv ∧ sFull.fifo.length = sFull.cfg.fifoDepth := by decide

/-- Every channel at full scale: one at +1.0, one at -1.0. -/
theorem witness_MixHasHeadroom :
    let s := { s0 with voices := [{ Voice.initial with vout := 0x10000 },
                                  { Voice.initial with vout := 0xFFFF0000, level := 0xFFFF0000 }] }
    s.voices.length = s.cfg.nv ∧ 1 ≤ s.cfg.nv ∧ s.fifo.length ≠ s.cfg.fifoDepth ∧
    ∀ x ∈ s.voices, x.vout.toInt.natAbs ≤ 65536 ∧ x.level.toInt.natAbs ≤ 65536 := by decide

theorem witness_MixerRegistersReadAndWrite :
    (1 : Byte).toNat < s0.cfg.nv ∧ s0.voices[(1 : Byte).toNat]? = some Voice.initial := by decide

theorem witness_PopTakesTheOldestSample :
    sFull.fifo = 9 :: [0xFFFFFFFF] ∧ s0.fifo = [] := by decide

theorem witness_SamplesLeaveInPushOrder :
    Instr.reset ∉ [Instr.pop, .mixpush, .nop, .pop] ∧ sFull.fifo = [9] ++ 0xFFFFFFFF :: [] := by decide

theorem witness_CntrdAndCntclrSelectOneRegister : (5 : Byte).toNat < 6 ∧ (0 : Byte).toNat < 6 := by
  decide

theorem witness_NopIdrdAndCfgrdAnswerConstants :
    s0.cfg.Legal ∧ [s0.cfg.sr, s0.cfg.nv, s0.cfg.fifoDepth, s0.cfg.notifyDepth, s0.cfg.adeShift,
      65536 / s0.cfg.nv][(5 : Byte).toNat]? = some 32768 := ⟨tiny_legal, by decide⟩

theorem witness_ResetRestoresEveryRegister : 1 ≤ s0.cfg.fifoDepth := by decide

/-- A configured sine ROM of four entries, and a configured note ROM. -/
theorem witness_RomsHoldTheListedEntries :
    ({ tiny with sineRom := some [0, 65536, 0, 0xFFFF0000] } : Config).sineRom =
      some [0, 65536, 0, 0xFFFF0000] ∧
    [0, 65536, 0, (0xFFFF0000 : Word)][3]? = some 0xFFFF0000 ∧
    ({ tiny with noteRom := some (List.replicate 128 7) } : Config).noteRom =
      some (List.replicate 128 7) ∧
    (List.replicate 128 (7 : Word))[(127 : Data7).val]? = some 7 := by
  refine ⟨rfl, by decide, rfl, by simp [-List.reduceReplicate]⟩

end Sys2Proof.Tests
end

/-! PROOFS. The envelope reads (spec/42_envelope.md R262 to R265). -/

section

namespace Sys2Proof.Machine

/-- The model's ending with OK is the statements' answered state. -/
theorem ok_eq_answered (s : State) (res : Word) : ok s res = .next (answered s res) := rfl

/-- The meaning's reading of U inverts the encoding of class ENV. -/
@[simp] theorem envOfU_envByte (e : EnvUnit) : envOfU (envByte e) = some e := by
  cases e with
  | ade a => exact envOfU_adeByte a
  | vca => exact envOfU_two

section
variable {s : State} {x : Voice} {v : Byte}
  (hv : v.toNat < s.cfg.nv) (hx : s.voices[v.toNat]? = some x)
include hv hx

/-- What the reads share: with V and U in range, a command that answers `f` of an envelope answers
that value of voice `x` and changes nothing else. -/
theorem envRead_eq_answered (o : Opcode) (f : Voice → EnvUnit → Word) (e : EnvUnit) :
    (withVoice s o v fun i => withUnit s o (envOfU (envByte e)) fun u => ok s (f (voice s i) u)) =
      .next (answered s (f x e)) := by
  rw [withVoice_lt hv, envOfU_envByte, withUnit_some, voice_of_getElem? hx, ok_eq_answered]

theorem exec_erdcur_eq_answered (e : EnvUnit) :
    exec (.erdcur v (envByte e)) s = .next (answered s (envCur x e)) :=
  envRead_eq_answered hv hx .erdcur envCur e

theorem exec_erdst_eq_answered (e : EnvUnit) :
    exec (.erdst v (envByte e)) s = .next (answered s (envStateCode x e)) :=
  envRead_eq_answered hv hx .erdst envStateCode e

theorem exec_erdcnt_eq_answered (e : EnvUnit) :
    exec (.erdcnt v (envByte e)) s = .next (answered s (envCount x e)) :=
  envRead_eq_answered hv hx .erdcnt envCount e

theorem exec_erdref_eq_answered : exec (.erdref v 2) s = .next (answered s x.vca.ref) := by
  rw [exec, execErdref, withVoice_lt hv, adsrOfU_two, withUnit_some, voice_of_getElem? hx,
    ok_eq_answered]

end

/-- Settles O34: each read at the ADE named and at the VCA. What a read answers of an envelope and its
state codes (R35) are the model's `envCur`, `envStateCode` and `envCount` at that unit. -/
theorem envelopeReadsAnswerTheRegisters : Obligations.EnvelopeReadsAnswerTheRegisters := by
  intro s x v e hv hx
  exact ⟨exec_erdcur_eq_answered hv hx (.ade e), exec_erdcur_eq_answered hv hx .vca,
    exec_erdst_eq_answered hv hx (.ade e), exec_erdst_eq_answered hv hx .vca,
    exec_erdcnt_eq_answered hv hx (.ade e), exec_erdcnt_eq_answered hv hx .vca,
    exec_erdref_eq_answered hv hx⟩

end Sys2Proof.Machine

end

/-! PROOFS. Who writes the parameter registers (spec/20_memory.md R118), and the samples from MIXPUSH to
AUDIO_OUT (R112). -/

section

namespace Sys2Proof.Machine

/-! ## Outcomes that are a next state with a property -/

/-- The outcome is a next state, and `P` holds of it. -/
def Ends (P : State → Prop) (r : Out) : Prop := ∃ t, r = .next t ∧ P t

theorem Ends.next {P : State → Prop} {t : State} (h : P t) : Ends P (.next t) := ⟨t, rfl, h⟩

theorem Ends.of_next {P : State → Prop} {r : Out} {t : State} (h : Ends P r) (hr : r = .next t) : P t := by
  obtain ⟨u, hu, hP⟩ := h
  cases hr.symm.trans hu
  exact hP

theorem Ends.mono {P Q : State → Prop} {r : Out} (h : Ends P r) (hPQ : ∀ t, P t → Q t) : Ends Q r := by
  obtain ⟨t, ht, hP⟩ := h
  exact ⟨t, ht, hPQ t hP⟩

theorem Ends.ok {P : State → Prop} {t : State} {res : Word} (h : P (respond t .ok res)) :
    Ends P (ok t res) := .next h

theorem Ends.ite {P : State → Prop} {c : Prop} [Decidable c] {a b : Out} (ha : Ends P a)
    (hb : Ends P b) : Ends P (if c then a else b) := by
  split
  · exact ha
  · exact hb

/-! The checks of a command: what holds of every error it can end in, and of every run past the check,
holds of its end. -/

section
variable {P : State → Prop} {s : State} (hf : ∀ opc st, P (raise s opc st))
include hf

theorem Ends.fail {o : Opcode} {st : Status} : Ends P (fail s o st) := .next (hf o.byte st)

theorem Ends.withVoice {o : Opcode} {v : Byte} {k : Nat → Out} (hk : ∀ i, Ends P (k i)) :
    Ends P (withVoice s o v k) := .ite (hk _) (.fail hf)

theorem Ends.withUnit {α : Type} {o : Opcode} {u : Option α} {k : α → Out} (hk : ∀ x, Ends P (k x)) :
    Ends P (withUnit s o u k) := by
  cases u with
  | some x => exact hk x
  | none => exact .fail hf

theorem Ends.withOperand {α : Type} {o : Opcode} {st : Status} {x : Option α} {k : α → Out}
    (hk : ∀ y, Ends P (k y)) : Ends P (withOperand s o st x k) := by
  cases x with
  | some y => exact hk y
  | none => exact .fail hf

end

/-! ## What an instruction does to the parameter registers and to the output FIFO -/

/-- From `s` to `t` the output FIFO keeps its samples, and `t` answers none. -/
structure KeepsFifo (s t : State) : Prop where
  fifo : t.fifo = s.fifo
  delivers_none : deliveredSample t.response = []

/-- From `s` to `t` the parameter registers and the output FIFO stay as they are. -/
structure KeepsParamsAndFifo (s t : State) : Prop extends KeepsFifo s t where
  params : t.params = s.params

theorem raise_keepsParamsAndFifo (s : State) (opc : Byte) (st : Status) :
    KeepsParamsAndFifo s (raise s opc st) := ⟨⟨rfl, rfl⟩, rfl⟩

theorem engineNoteOff_silent_keepsParamsAndFifo (s : State) (b0 : Byte) (n : Data7) :
    KeepsParamsAndFifo s (engineNoteOff (silent s) b0 n) :=
  ⟨⟨engineNoteOff_fifo .., by simp [deliveredSample]⟩, engineNoteOff_params ..⟩

/-- All that instructions other than PWR, MIDI CC, MIXPUSH, POP and RESET do to the parameter registers
and the output FIFO: nothing. The groups are the checks an instruction makes before its effect. -/
theorem exec_keepsParamsAndFifo_or (i : Instr) (s : State) :
    (i ≠ .mixpush ∧ Ends (KeepsParamsAndFifo s) (exec i s)) ∨ (∃ id x, i = .pwr id x) ∨
      (∃ ch b1 b2, i = .midiCc ch b1 b2) ∨ i = .mixpush ∨ i = .pop ∨ i = .reset := by
  have hf := raise_keepsParamsAndFifo s
  cases i
  case pwr id x => exact .inr (.inl ⟨id, x, rfl⟩)
  case midiCc ch b1 b2 => exact .inr (.inr (.inl ⟨ch, b1, b2, rfl⟩))
  case mixpush | pop | reset => simp
  all_goals
    refine .inl ⟨nofun, ?_⟩
    rw [exec]
  case nop | fmul | fadd | fsub | fshr | fto16 | fxmix | fifolvl | pkind | papply | paprd | strd | stclr
      | idrd => exact .ok ⟨⟨rfl, rfl⟩, rfl⟩
  case vpitch | vcur | vslen | mlvlwr | mlvlrd | mvoutrd =>
    exact .withVoice hf fun _ => .ok ⟨⟨rfl, rfl⟩, rfl⟩
  case oprot | oprd | etrig | eretrig | erel | escale | eidx | erdcur | erdst | erdcnt | erdref =>
    exact .withVoice hf fun _ => .withUnit hf fun _ => .ok ⟨⟨rfl, rfl⟩, rfl⟩
  case opwr =>
    exact .withVoice hf fun _ => .withUnit hf fun _ => .ite (.fail hf) (.ok ⟨⟨rfl, rfl⟩, rfl⟩)
  case vout => exact .withVoice hf fun _ => .ite (.fail hf) (.ok ⟨⟨rfl, rfl⟩, rfl⟩)
  case vstk => exact .withVoice hf fun _ => .withOperand hf fun _ => .ok ⟨⟨rfl, rfl⟩, rfl⟩
  case cntrd | cntclr | cfgrd => exact .withUnit hf fun _ => .ok ⟨⟨rfl, rfl⟩, rfl⟩
  case vmap | ccrd => exact .withOperand hf fun _ => .ok ⟨⟨rfl, rfl⟩, rfl⟩
  case prd =>
    exact .withUnit hf fun _ => .withOperand hf fun _ => .ite (.fail hf) (.ok ⟨⟨rfl, rfl⟩, rfl⟩)
  case ccwr =>
    exact .withOperand hf fun _ =>
      .ite (.withOperand hf fun _ => .ok ⟨⟨rfl, rfl⟩, rfl⟩) (.ok ⟨⟨rfl, rfl⟩, rfl⟩)
  case npop =>
    rw [execNpop]
    split <;> exact .ok ⟨⟨rfl, rfl⟩, rfl⟩
  case midiNoteOn =>
    exact .ite (.next (engineNoteOff_silent_keepsParamsAndFifo ..)) (.next ⟨⟨rfl, rfl⟩, rfl⟩)
  case midiNoteOff => exact .next (engineNoteOff_silent_keepsParamsAndFifo ..)
  case midiOther => exact .next ⟨⟨rfl, rfl⟩, rfl⟩

theorem exec_pwr_keepsFifo (id x : Word) (s : State) : Ends (KeepsFifo s) (exec (.pwr id x) s) :=
  .withOperand (fun _ _ => ⟨rfl, rfl⟩) fun _ => .ok ⟨setParam_fifo .., rfl⟩

theorem exec_midiCc_keepsFifo (ch : BitVec 4) (b1 b2 : Byte) (s : State) :
    Ends (KeepsFifo s) (exec (.midiCc ch b1 b2) s) :=
  .next ⟨midiControl_fifo .., by simp [deliveredSample]⟩

theorem exec_pop_nil {s : State} (h : s.fifo = []) :
    exec .pop s = .next { s with log := logUnderrun s.log, response := .audio 0 true } := by
  rw [exec, execPop, h]

theorem exec_pop_cons {s : State} {x : Word} {rest : List Word} (h : s.fifo = x :: rest) :
    exec .pop s = .next { s with fifo := rest, response := .audio (to16 x) false } := by
  rw [exec, execPop, h]

theorem exec_mixpush_keepsParams (s : State) :
    Ends (fun t => t.params = s.params) (exec .mixpush s) :=
  .ite (.fail fun _ _ => rfl) (.ok rfl)

theorem exec_pop_keepsParams (s : State) : Ends (fun t => t.params = s.params) (exec .pop s) := by
  cases h : s.fifo with
  | nil => exact ⟨_, exec_pop_nil h, rfl⟩
  | cons x rest => exact ⟨_, exec_pop_cons h, rfl⟩

/-- R118 for one instruction. -/
theorem exec_keepsParams_or (i : Instr) (s : State) :
    Ends (fun t => t.params = s.params) (exec i s) ∨ (∃ id x, i = .pwr id x) ∨
      (∃ ch b1 b2, i = .midiCc ch b1 b2) ∨ i = .reset := by
  rcases exec_keepsParamsAndFifo_or i s with ⟨-, h⟩ | h | h | rfl | rfl | h
  · exact .inl (h.mono fun _ ht => ht.params)
  · exact .inr (.inl h)
  · exact .inr (.inr (.inl h))
  · exact .inl (exec_mixpush_keepsParams s)
  · exact .inl (exec_pop_keepsParams s)
  · exact .inr (.inr (.inr h))

/-! ## One step on a pending transaction -/

theorem step_of_decode_ok {s : State} {r : Request} {rest : List Request} {i : Instr}
    (hp : s.pending = r :: rest) (hd : decode r = .ok i) :
    step s = exec i { s with pending := rest } := by
  simp only [step, fetch, hp, hd]

theorem step_of_decode_error {s : State} {r : Request} {rest : List Request} {e : Reject}
    (hp : s.pending = r :: rest) (hd : decode r = .error e) :
    step s = .next (rejectRequest { s with pending := rest } r) := by
  simp only [step, fetch, hp, hd]

/-- Settles O16: a request that does not decode keeps the registers, and of the instructions only the
three named may change them. -/
theorem onlyPwrCcAndResetWriteParameters : Obligations.OnlyPwrCcAndResetWriteParameters := by
  intro s t r rest hp hstep hne
  cases hd : decode r with
  | error e =>
    rw [step_of_decode_error hp hd] at hstep
    cases hstep
    exact absurd rfl hne
  | ok i =>
    rw [step_of_decode_ok hp hd] at hstep
    rcases exec_keepsParams_or i { s with pending := rest } with
      h | ⟨id, x, rfl⟩ | ⟨ch, b1, b2, rfl⟩ | rfl
    · exact absurd (h.of_next hstep) hne
    · exact .inl ⟨id, x, rfl⟩
    · exact .inr (.inl ⟨ch, b1, b2, rfl⟩)
    · exact .inr (.inr rfl)

/-! ## The samples that enter and leave the output FIFO -/

theorem pushedSample_of_ne_mixpush {i : Instr} (h : i ≠ .mixpush) (r : Response) :
    pushedSample i r = [] := by
  unfold pushedSample
  split <;> simp [h]

/-- From `s` to `t` instruction `i` took the samples `gone` off the head of the output FIFO and
delivered just those, and appended what it pushed. -/
structure MovesSamples (i : Instr) (s : State) (gone : List Word) (t : State) : Prop where
  delivers : deliveredSample t.response = gone.map to16
  conserves : s.fifo ++ pushedSample i t.response = gone ++ t.fifo

theorem KeepsFifo.movesSamples {i : Instr} {s t : State} (hi : i ≠ .mixpush) (h : KeepsFifo s t) :
    MovesSamples i s [] t :=
  ⟨h.delivers_none, by simp [pushedSample_of_ne_mixpush hi, h.fifo]⟩

/-- A MIXPUSH that is not BUSY appends the sample it answers (R384). -/
theorem exec_mixpush_movesSamples (s : State) :
    Ends (MovesSamples .mixpush s []) (exec .mixpush s) :=
  .ite (.next ⟨rfl, List.append_nil _⟩) (.ok ⟨rfl, rfl⟩)

/-- A POP takes the oldest sample, if there is one (R390, R391). -/
theorem exec_pop_movesSamples (s : State) : ∃ gone, Ends (MovesSamples .pop s gone) (exec .pop s) := by
  cases h : s.fifo with
  | nil => exact ⟨[], _, exec_pop_nil h, rfl, List.append_nil _⟩
  | cons x rest => exact ⟨[x], _, exec_pop_cons h, rfl, (List.append_nil _).trans h⟩

/-- R112 for one instruction. -/
theorem exec_movesSamples {i : Instr} (hi : i ≠ .reset) (s : State) :
    ∃ gone, Ends (MovesSamples i s gone) (exec i s) := by
  rcases exec_keepsParamsAndFifo_or i s with
    ⟨hm, h⟩ | ⟨id, x, rfl⟩ | ⟨ch, b1, b2, rfl⟩ | rfl | rfl | rfl
  · exact ⟨[], h.mono fun _ ht => ht.toKeepsFifo.movesSamples hm⟩
  · exact ⟨[], (exec_pwr_keepsFifo id x s).mono fun _ ht => ht.movesSamples nofun⟩
  · exact ⟨[], (exec_midiCc_keepsFifo ch b1 b2 s).mono fun _ ht => ht.movesSamples nofun⟩
  · exact ⟨[], exec_mixpush_movesSamples s⟩
  · exact exec_pop_movesSamples s
  · exact absurd rfl hi

/-! ## Runs -/

theorem sampleRun_cons {i : Instr} {run : List Instr} {s t u : State} {pushed : List Word}
    {popped : List (BitVec 16)} (hi : exec i s = .next t)
    (hrun : sampleRun run t = some (pushed, popped, u)) :
    sampleRun (i :: run) s =
      some (pushedSample i t.response ++ pushed, deliveredSample t.response ++ popped, u) := by
  simp only [sampleRun, hi, hrun]

/-- Induction on the run: what was queued and pushed is what left and what is queued. -/
theorem sampleRun_conserves (run : List Instr) (s : State) (hrun : .reset ∉ run) :
    ∃ (pushed gone : List Word) (t : State),
      sampleRun run s = some (pushed, gone.map to16, t) ∧ s.fifo ++ pushed = gone ++ t.fifo := by
  induction run generalizing s with
  | nil => exact ⟨[], [], s, rfl, List.append_nil _⟩
  | cons i run ih =>
    obtain ⟨hi, hrest⟩ := List.ne_and_not_mem_of_not_mem_cons hrun
    obtain ⟨gone₁, t, ht, hdel, hcons⟩ := exec_movesSamples hi.symm s
    obtain ⟨pushed, gone₂, u, hu, hfifo⟩ := ih t hrest
    refine ⟨pushedSample i t.response ++ pushed, gone₁ ++ gone₂, u, ?_, ?_⟩
    · rw [sampleRun_cons ht hu, hdel, List.map_append]
    · calc s.fifo ++ (pushedSample i t.response ++ pushed)
          = gone₁ ++ (t.fifo ++ pushed) := by rw [← List.append_assoc, hcons, List.append_assoc]
        _ = gone₁ ++ gone₂ ++ u.fifo := by rw [hfifo, List.append_assoc]

/-- Induction on the samples before the last one popped. -/
theorem sampleRun_pops (s : State) (xs ys : List Word) (last : Word) (h : s.fifo = xs ++ last :: ys) :
    sampleRun (List.replicate (xs.length + 1) .pop) s =
      some ([], (xs ++ [last]).map to16,
        { s with fifo := ys, response := .audio (to16 last) false }) := by
  induction xs generalizing s with
  | nil => exact sampleRun_cons (exec_pop_cons h) rfl
  | cons x xs ih => exact sampleRun_cons (exec_pop_cons h) (ih _ rfl)

/-- Settles O55: the conservation of samples along a run, and what a row of pops delivers. -/
theorem samplesLeaveInPushOrder : Obligations.SamplesLeaveInPushOrder :=
  ⟨sampleRun_conserves, sampleRun_pops⟩

end Sys2Proof.Machine

end

/-! PROOFS. The FPU commands (spec/40_fixed_point.md R170 to R185). -/

section

namespace Sys2Proof.Machine

/-! ## What each command answers -/

section
variable (a b : Word) (s : State)

theorem exec_fmul_eq_answered : exec (.fmul a b) s = .next (answered s (fmul a b)) := rfl

theorem exec_fadd_eq_answered : exec (.fadd a b) s = .next (answered s (fadd a b)) := rfl

theorem exec_fsub_eq_answered : exec (.fsub a b) s = .next (answered s (fsub a b)) := rfl

/-- The five low bits of `opb` are its remainder modulo 32 (R183). -/
theorem exec_fshr_eq_answered (k : Word) :
    exec (.fshr a k) s = .next (answered s (fshr a (k.toNat % 32))) := by
  have hk : (k.extractLsb' 0 5).toNat = k.toNat % 32 := by simp
  rw [exec, execFshr, hk, ok_eq_answered]

theorem exec_fto16_eq_answered :
    exec (.fto16 a) s = .next (answered s ((to16 a).signExtend 32)) := rfl

theorem exec_fxmix_eq_answered (x y : Word) :
    exec (.fxmix x y) s = .next (answered s (xmix x y s.params.mix)) := rfl

end

/-- Settles O19 by the exact value of `fmul`. -/
theorem fmulFloorsTheExactProduct : Obligations.FmulFloorsTheExactProduct := fun a b s =>
  ⟨fmul a b, exec_fmul_eq_answered a b s, fmul_toInt a b⟩

/-- Settles O22: the wrapped integer sum and difference are those of the words. -/
theorem faddAndFsubWrap : Obligations.FaddAndFsubWrap := by
  intro a b s
  rw [← fadd_eq, ← fsub_eq]
  exact ⟨exec_fadd_eq_answered a b s, exec_fsub_eq_answered a b s⟩

/-- Settles O23: a shift to the right never leaves the 32-bit range, so the quotient stands unwrapped. -/
theorem fshrFloorsThePowerOfTwo : Obligations.FshrFloorsThePowerOfTwo := fun a k s =>
  ⟨fshr a (k.toNat % 32), exec_fshr_eq_answered a s k, fshr_toInt a _⟩

/-! ## Conversion to PCM -/

/-- Sign extension keeps the value of the PCM sample. -/
theorem signExtend_to16_toInt (a : Word) :
    ((to16 a).signExtend 32).toInt = max (-65536) (min a.toInt 65535) / 2 := by
  rw [BitVec.toInt_signExtend_of_le (by decide), to16_toInt]

/-- Settles O24: the clauses are the three cases of the clip, and the clip bounds the half. -/
theorem fto16ClipsThenHalves : Obligations.Fto16ClipsThenHalves := by
  intro a s
  refine ⟨_, exec_fto16_eq_answered a s, ?_⟩
  rw [signExtend_to16_toInt]
  refine ⟨fun hhi => ?_, fun hlo => ?_, fun hlo hhi => ?_, ?_, ?_⟩
  · rw [min_eq_right hhi]; decide
  · rw [max_eq_left (min_le_of_left_le hlo)]; decide
  · rw [min_eq_left hhi, max_eq_right hlo]
  · omega
  · omega

/-! ## Cross-mix -/

theorem fmul_zero (a : Word) : fmul a 0#32 = 0#32 := by
  rw [fmul, BitVec.toInt_zero, Int.mul_zero]; decide

/-- The weight of the first input is 1.0 less the mix, as words (R175). -/
theorem wrap32_fs_sub_toInt (mix : Word) : wrap32 (fs - mix.toInt) = 0x10000 - mix :=
  fsub_eq 0x10000 mix

/-- Half the sum of the two products, for the clamped mix `m`. -/
theorem xmix_toInt {x y mix m : Word} (hm : clamp mix.toInt 0 fs = m.toInt) :
    (xmix x y mix).toInt = (fmul x (0x10000 - m) + fmul y m).toInt / 2 := by
  simp only [xmix, hm]
  rw [fshr_toInt, fadd_eq, wrap32_fs_sub_toInt, wrap32_toInt_self, pow_one]

section
variable (x y : Word) {mix : Word}

/-- A mix at or below 0 acts as 0: only `x` is heard, at weight 1.0. -/
theorem xmix_toInt_of_nonpos (h : mix.toInt ≤ 0) : (xmix x y mix).toInt = x.toInt / 2 := by
  have hm : clamp mix.toInt 0 fs = (0#32).toInt := by
    rw [clamp_eq _ (by decide), BitVec.toInt_zero, max_eq_left (min_le_of_left_le h)]
  rw [xmix_toInt hm, BitVec.sub_zero, fmul_one, fmul_zero, BitVec.add_zero]

/-- A mix at or above 1.0 acts as 1.0: only `y` is heard, at weight 1.0. -/
theorem xmix_toInt_of_ge_one (h : 65536 ≤ mix.toInt) : (xmix x y mix).toInt = y.toInt / 2 := by
  have hm : clamp mix.toInt 0 fs = (0x10000 : Word).toInt := by
    rw [clamp_eq _ (by decide), fs, min_eq_right h]; decide
  rw [xmix_toInt hm, BitVec.sub_self, fmul_zero, fmul_one, BitVec.zero_add]

/-- A mix in [0, 1.0] is not clamped. -/
theorem xmix_toInt_of_mem (h0 : 0 ≤ mix.toInt) (h1 : mix.toInt ≤ 65536) :
    (xmix x y mix).toInt = (fmul x (0x10000 - mix) + fmul y mix).toInt / 2 := by
  refine xmix_toInt ?_
  rw [clamp_eq _ (by decide), fs, min_eq_left h1, max_eq_right h0]

end

/-- Settles O25: the clauses are the three cases of the clamp of MIX. -/
theorem fxmixClampsTheMix : Obligations.FxmixClampsTheMix := fun x y s =>
  ⟨xmix x y s.params.mix, exec_fxmix_eq_answered s x y, xmix_toInt_of_nonpos x y,
    xmix_toInt_of_ge_one x y, xmix_toInt_of_mem x y⟩

end Sys2Proof.Machine

end

/-! PROOFS. The operator's rotation (spec/41_operator.md R200 to R206). -/

section

namespace Sys2Proof.Machine

/-! ## What OPROT writes and answers -/

/-- With V in range, OPROT keeps the new phase, answers the ROM entry at it, and changes nothing else
(R206). -/
theorem exec_oprot_eq_next {s : State} {x : Voice} {v : Byte} (hv : v.toNat < s.cfg.nv)
    (hx : s.voices[v.toNat]? = some x) (u : OpUnit) (freq pm : Word) {p : Nat}
    (hp : rotatePhase s u (perOpGet x.phase u) freq pm = p) :
    exec (.oprot v (opByte u) freq pm) s = .next
      { s with
        voices := s.voices.set v.toNat { x with phase := perOpSet x.phase u p }
        response := .cmd .ok (sineAt s.cfg p) } := by
  rw [exec, execOprot, withVoice_lt hv, opOfU_opByte, withUnit_some, voice_of_getElem? hx, hp]
  simp only [modifyVoice_eq _ hx, ok, respond, voiceSetPhase]

/-! ## The new phase -/

/-- A phase update by the integer part of an Fp32 (R204). -/
theorem pstep_asr_eq (sr p : Nat) (a : Word) :
    pstep sr p (asr a.toInt 16) =
      if (p : Int) + a.toInt / 65536 < 0 then 0 else (((p : Int) + a.toInt / 65536) % sr).toNat := by
  rw [asr_eq, pstep_eq]
  norm_num

/-- R201 and the amount of R205 step 5. -/
theorem feedbackActive_iff (s : State) (u : OpUnit) :
    feedbackActive s u = true ↔ s.fbOwner = ⟨true, u⟩ ∧ s.params.feedback ≠ 0 := by
  rcases hfb : s.fbOwner with ⟨en, op⟩
  simp [feedbackActive, hfb, paramRead]

/-- The phase kept is that of the first update `p1`, or with feedback that of a second update, which
starts from `p1` and the sample there (R205). -/
theorem rotatePhase_eq_ite {s : State} {u : OpUnit} {p p1 : Nat} {freq pm : Word}
    (hp1 : p1 = pstep s.cfg.sr p (asr (fmul freq (perOpGet s.params.ratio u) + pm).toInt 16)) :
    rotatePhase s u p freq pm =
      if feedbackActive s u then
        pstep s.cfg.sr p1 (asr (fmul (sineAt s.cfg p1) s.params.feedback).toInt 16)
      else p1 := by
  simp only [rotatePhase, fadd_eq, paramRead, hp1]

/-- Settles O26: OPROT keeps `rotatePhase`, which is one phase update by the modulated frequency, or
two when the operator has feedback. -/
theorem oprotMovesThePhaseAndReadsTheRom : Obligations.OprotMovesThePhaseAndReadsTheRom := by
  rintro s x v u freq pm _ p hv hx rfl hp
  rw [← pstep_asr_eq] at hp
  have hrot := rotatePhase_eq_ite hp
  rw [← feedbackActive_iff]
  refine ⟨fun hfb => ?_, ?_⟩
  · rw [if_neg hfb] at hrot
    exact exec_oprot_eq_next hv hx u freq pm hrot
  · rintro _ q rfl hq howner hamount
    rw [if_pos ((feedbackActive_iff s u).mpr ⟨howner, hamount⟩), pstep_asr_eq, ← hq] at hrot
    exact exec_oprot_eq_next hv hx u freq pm hrot

end Sys2Proof.Machine

end

/-! PROOFS. What the envelope commands do to a voice (spec/42_envelope.md R230 to R254). -/

section

namespace Sys2Proof.Machine

/-! ## Retrigger, by its register -/

/-- The RETRIGGER register of an envelope (R232, R240). -/
def envRetriggers (p : Params) : EnvUnit → Bool
  | .ade a => (adeParams p a).retrigger
  | .vca => p.vca.retrigger

theorem envRetrigger_eq_ite (p : Params) (e : EnvUnit) (x : Voice) :
    envRetrigger p e x = if envRetriggers p e then envTrigger e x else x := by
  cases e with
  | ade a =>
    rw [envRetrigger, adeRetrigger, envRetriggers]
    split
    · rfl
    · exact voiceSetAde_self x a
  | vca =>
    rw [envRetrigger, adsrRetrigger, envRetriggers]
    split <;> rfl

/-! ## What the commands write and answer -/

section
variable {s : State} {x : Voice} {v : Byte}
  (hv : v.toNat < s.cfg.nv) (hx : s.voices[v.toNat]? = some x)

include hx in
/-- A voice written back as it was leaves the state as it was. -/
theorem setVoice_self : setVoice s v.toNat x = s := by
  obtain ⟨hlt, rfl⟩ := List.getElem?_eq_some_iff.mp hx
  rw [setVoice, List.set_getElem_self]

include hv hx

/-- What ETRIG, ERETRIG and EREL share: with V and U in range, a command that updates a voice by `f` at
an envelope writes voice `x` updated, answers 0, and changes nothing else. -/
theorem envUpdate_eq_answered (o : Opcode) (f : EnvUnit → Voice → Voice) (e : EnvUnit) :
    (withVoice s o v fun i => withUnit s o (envOfU (envByte e)) fun u =>
      ok (modifyVoice s i (f u)) 0) = .next (answered (setVoice s v.toNat (f e x)) 0) := by
  rw [withVoice_lt hv, envOfU_envByte, withUnit_some, modifyVoice, voice_of_getElem? hx,
    ok_eq_answered]

theorem exec_etrig_eq_answered (e : EnvUnit) :
    exec (.etrig v (envByte e)) s = .next (answered (setVoice s v.toNat (envTrigger e x)) 0) :=
  envUpdate_eq_answered hv hx .etrig envTrigger e

theorem exec_eretrig_eq_answered (e : EnvUnit) :
    exec (.eretrig v (envByte e)) s =
      .next (answered (setVoice s v.toNat (envRetrigger s.params e x)) 0) :=
  envUpdate_eq_answered hv hx .eretrig (envRetrigger s.params) e

theorem exec_erel_eq_answered (e : EnvUnit) :
    exec (.erel v (envByte e)) s =
      .next (answered (setVoice s v.toNat (envRelease s.params e x)) 0) :=
  envUpdate_eq_answered hv hx .erel (envRelease s.params) e

theorem exec_eretrig_eq_ite (e : EnvUnit) :
    exec (.eretrig v (envByte e)) s =
      if envRetriggers s.params e then exec (.etrig v (envByte e)) s else .next (answered s 0) := by
  rw [exec_eretrig_eq_answered hv hx, envRetrigger_eq_ite]
  split
  · rw [exec_etrig_eq_answered hv hx]
  · rw [setVoice_self hx]

theorem exec_erel_ade_eq_ite (e : AdeUnit) :
    exec (.erel v (adeByte e)) s =
      if (adeParams s.params e).gated then
        .next (answered (setVoice s v.toNat (voiceSetAde x e ⟨.decay, (voiceAde x e).cur, 0⟩)) 0)
      else .next (answered s 0) := by
  refine (exec_erel_eq_answered hv hx (.ade e)).trans ?_
  rw [envRelease, adeRelease]
  split
  · rfl
  · rw [voiceSetAde_self, setVoice_self hx]

/-- ESCALE advances the envelope first, and scales by the new gain (R253). -/
theorem exec_escale_eq_answered (e : EnvUnit) (sig : Word) {y : Voice}
    (hy : envAdvance s.cfg.adeShift s.params e x = y) :
    exec (.escale v (envByte e) sig) s =
      .next (answered (setVoice s v.toNat y) (fmul sig (envCur y e))) := by
  simp only [exec, execEscale, withVoice_lt hv, envOfU_envByte, withUnit_some, envScale,
    voice_of_getElem? hx, hy, ok_eq_answered]

theorem exec_escale_ade_eq_answered (e : AdeUnit) (sig : Word) {a : Ade}
    (ha : adeAdvance s.cfg.adeShift (adeParams s.params e) (voiceAde x e) = a) :
    exec (.escale v (adeByte e) sig) s =
      .next (answered (setVoice s v.toNat (voiceSetAde x e a)) (fmul sig a.cur)) := by
  refine (exec_escale_eq_answered hv hx (.ade e) sig (congrArg (voiceSetAde x e) ha)).trans ?_
  rw [envCur, voiceAde_voiceSetAde, if_pos rfl]

theorem exec_escale_vca_eq_answered (sig : Word) {a : Adsr}
    (ha : adsrAdvance s.params.vca x.vca = a) :
    exec (.escale v 2 sig) s =
      .next (answered (setVoice s v.toNat { x with vca := a }) (fmul sig a.cur)) :=
  exec_escale_eq_answered hv hx .vca sig (congrArg (fun b => { x with vca := b }) ha)

end

/-! ## Trigger, Retrigger, Release and EIDX -/

/-- Settles O30: each command writes the model's update of the envelope named, and an update that has
no effect writes the voice back as it was. -/
theorem triggerRetriggerAndRelease : Obligations.TriggerRetriggerAndRelease := by
  intro s x v e hv hx
  exact ⟨exec_etrig_eq_answered hv hx (.ade e), exec_etrig_eq_answered hv hx .vca,
    exec_eretrig_eq_ite hv hx (.ade e), exec_eretrig_eq_ite hv hx .vca,
    exec_erel_eq_answered hv hx .vca, exec_erel_ade_eq_ite hv hx e⟩

/-- Settles O33: past the checks of V and U both commands are `envScale` of the INDEX register. -/
theorem eidxScalesTheIndexRegister : Obligations.EidxScalesTheIndexRegister := by
  intro s v e hv
  refine ⟨respond (envScale s v.toNat (.ade e) (adeParams s.params e).index).1 .ok
    (envScale s v.toNat (.ade e) (adeParams s.params e).index).2, ?_, ?_⟩
  · rw [exec, execEidx, withVoice_lt hv, adeOfU_adeByte, withUnit_some]; rfl
  · rw [exec, execEscale, withVoice_lt hv, envOfU_adeByte, withUnit_some]; rfl

/-! ## The ramps of one sample, with no wrap -/

/-- The ADE's ramp as a quotient of integers, with a zero length counted as 1 (R231). -/
theorem ramp_cast (n sh : Nat) (x : BitVec 16) :
    ((n * 2 ^ sh / atLeastOne x : Nat) : Int) = n * 2 ^ sh / (max x.toNat 1 : Nat) := by
  rw [atLeastOne, Int.natCast_ediv, Nat.cast_mul, Nat.cast_pow, Nat.cast_ofNat]

/-- A gain of the attack ramp below 1.0. -/
theorem ade_attack_gain {m a : Nat} (h : ¬ 65536 * a ≤ m) :
    (wrap32 ((m / a : Nat) : Int)).toInt = ((m / a : Nat) : Int) := by
  have hlt : m / a < 65536 := Nat.div_lt_of_lt_mul (by omega)
  have hnonneg : 0 ≤ ((m / a : Nat) : Int) := Int.natCast_nonneg _
  exact wrap32_toInt (by omega) ((Int.ofNat_lt.mpr hlt).trans (by decide))

/-- A gain of the decay ramp, which starts at 1.0 and is above ENDLEVEL. -/
theorem ade_decay_gain {r : Nat} {endLevel : Word} (h : ¬ 65536 - (r : Int) ≤ endLevel.toInt) :
    (wrap32 (65536 - (r : Int))).toInt = 65536 - (r : Int) := by
  have := toInt_bounds endLevel
  apply wrap32_toInt <;> omega

theorem wrap32_full_scale_toInt : (wrap32 65536).toInt = 65536 := by decide

/-- The captured level of the VCA is kept (R241). -/
theorem adsrAdvance_ref (p : VcaParams) (o : Adsr) : (adsrAdvance p o).ref = o.ref := by
  cases hst : o.state with
  | attack => rw [adsrAdvance_attack hst]; split <;> rfl
  | decay => rw [adsrAdvance_decay hst]; split <;> rfl
  | sustain => rw [adsrAdvance_sustain hst]
  | release => rw [adsrAdvance_release hst]; split <;> rfl
  | complete => rw [adsrAdvance_complete hst]

/-! ## ESCALE -/

/-- Settles O31: ESCALE keeps `adeAdvance` of the ADE, whose ramp is exact in each state. -/
theorem escaleStepsAnAde : Obligations.EscaleStepsAnAde := by
  rintro s x v e sig o p _ hv hx ho rfl rfl
  refine ⟨adeAdvance s.cfg.adeShift (adeParams s.params e) o,
    exec_escale_ade_eq_answered hv hx e sig (ho ▸ rfl), ?_⟩
  cases hst : o.state with
  | attack =>
    simp only [← ramp_cast]
    split
    · next h =>
      rw [(adeAdvance_attack hst).trans (if_pos h)]
      exact ⟨rfl, wrap32_full_scale_toInt, rfl⟩
    · next h =>
      rw [(adeAdvance_attack hst).trans (if_neg h)]
      exact ⟨rfl, satInc32_toNat _, ade_attack_gain h⟩
  | sustain =>
    rw [adeAdvance_sustain hst]
    exact ⟨rfl, wrap32_full_scale_toInt, satInc32_toNat _⟩
  | decay =>
    simp only [← ramp_cast]
    split
    · next h =>
      rw [(adeAdvance_decay hst).trans (if_pos h)]
      exact ⟨rfl, rfl, rfl⟩
    · next h =>
      rw [(adeAdvance_decay hst).trans (if_neg h)]
      exact ⟨rfl, satInc32_toNat _, ade_decay_gain h⟩
  | complete =>
    rw [adeAdvance_complete hst]
    exact ⟨rfl, rfl, satInc32_toNat _⟩

/-- Settles O32: ESCALE keeps `adsrAdvance` of the VCA, whose ramps are exact in each state. -/
theorem escaleStepsTheVca : Obligations.EscaleStepsTheVca := by
  rintro s x v sig _ p _ hv hx rfl rfl rfl
  refine ⟨adsrAdvance s.params.vca x.vca, exec_escale_vca_eq_answered hv hx sig rfl,
    adsrAdvance_ref _ _, ?_⟩
  cases hst : x.vca.state with
  | attack =>
    dsimp only
    split
    · next h =>
      rw [(adsrAdvance_attack hst).trans (if_pos h)]
      exact ⟨rfl, wrap32_full_scale_toInt, rfl⟩
    · next h =>
      rw [(adsrAdvance_attack hst).trans (if_neg h)]
      exact ⟨rfl, satInc32_toNat _, attack_gain _ (not_le.mp h)⟩
  | decay =>
    dsimp only
    split
    · next h =>
      rw [(adsrAdvance_decay hst).trans (if_pos h)]
      exact ⟨rfl, rfl, rfl⟩
    · next h =>
      rw [(adsrAdvance_decay hst).trans (if_neg h)]
      exact ⟨rfl, satInc32_toNat _, decay_gain _ (not_le.mp h).le⟩
  | sustain =>
    rw [adsrAdvance_sustain hst]
    exact ⟨rfl, rfl, satInc32_toNat _⟩
  | release =>
    dsimp only
    split
    · next h =>
      rw [(adsrAdvance_release hst).trans (if_pos h)]
      exact ⟨rfl, rfl, rfl⟩
    · next h =>
      rw [(adsrAdvance_release hst).trans (if_neg h)]
      exact ⟨rfl, satInc32_toNat _, release_gain _ (not_le.mp h).le⟩
  | complete =>
    rw [adsrAdvance_complete hst]
    exact ⟨rfl, rfl, satInc32_toNat _⟩

end Sys2Proof.Machine

end

/-! PROOFS. The effect of a control change on the patch registers (spec/43_patch.md R282 to R296). -/

section

namespace Sys2Proof.Machine

/-! ## ParamIds -/

/-- R282 lists every register. -/
theorem mem_pidAll (p : Pid) : p ∈ pidAll := by
  cases p with
  | algorithm | feedback | mix => decide
  | ratio u => cases u <;> decide
  | ade e f => cases e <;> cases f <;> decide
  | vca f => cases f <;> decide

/-- No two registers of R282 share an id. -/
@[simp] theorem pidOfId_pidId (p : Pid) : pidOfId (pidId p) = some p :=
  (by decide : ∀ q ∈ pidAll, pidOfId (pidId q) = some q) p (mem_pidAll p)

/-- The zero-extended id of a register is an operand that names it (R285). -/
@[simp] theorem pidOfWord_pidId (p : Pid) : pidOfWord ((pidId p).setWidth 32) = some p := by
  have hlt : ((pidId p).setWidth 32).toNat < 256 := by
    rw [BitVec.toNat_setWidth_of_le (by decide)]
    exact (pidId p).isLt
  have hid : ((pidId p).setWidth 32).setWidth 8 = pidId p := by
    rw [BitVec.setWidth_setWidth_of_le _ (by decide), BitVec.setWidth_eq]
  rw [pidOfWord, if_pos hlt, hid, pidOfId_pidId]

/-! ## The converted value (R288), with no wrap -/

section
variable (d : Data7)

theorem ccConv_bool_toNat : (ccConv .bool d).toNat = if 64 ≤ d.val then 1 else 0 := by
  simp only [ccConv, bitWord, decide_eq_true_eq, apply_ite BitVec.toNat]
  rfl

theorem ccConv_u16_toNat : (ccConv .u16 d).toNat = d.val * 512 := by
  rw [ccConv, Nat.shiftLeft_eq, BitVec.toNat_ofNat]
  omega

theorem ccConv_fp32_toInt : (ccConv .fp32 d).toInt = ((d.val : Int) - 64) * 256 := by
  rw [ccConv]
  apply wrap32_toInt <;> omega

theorem ccConv_byte_toNat : (ccConv .byte d).toNat = d.val := by
  rw [ccConv, BitVec.toNat_ofNat]
  omega

end

/-! ## PWR and the control change -/

/-! Neither the notification nor a parameter write depends on the answer the state holds. -/

theorem notify_silent (s : State) (p : Pid) : notify (silent s) p = silent (notify s p) := by
  rw [notify, notify, apply_ite silent]
  rfl

theorem setParam_silent (s : State) (p : Pid) (w : Word) :
    setParam (silent s) p w = silent (setParam s p w) :=
  notify_silent { s with params := paramWrite s.params p w } p

section
variable (s : State) (p : Pid) (w : Word) (ch : BitVec 4) (b1 b2 : Byte)

theorem exec_pwr_pidId_eq_answered :
    exec (.pwr ((pidId p).setWidth 32) w) s = .next (answered (setParam s p w) 0) := by
  rw [exec, execPwr, pidOfWord_pidId, withOperand_some, ok_eq_answered]

variable {s p}

theorem exec_midiCc_of_unbound (h : ccBinding s (clampData b1) = none) :
    exec (.midiCc ch b1 b2) s = .next (afterDiag s 2 (0xB#4 ++ ch) (clampData b1).val) := by
  have hsilent : ccBinding (silent s) (clampData b1) = none := h
  rw [exec, execMidiCc, midiControl, hsilent]
  exact congrArg _ (diagnose_silent_eq s 2 (midiStatus 0xB ch) (clampData b1))

theorem exec_midiCc_of_bound (h : ccBinding s (clampData b1) = some p) :
    exec (.midiCc ch b1 b2) s =
      .next (silent (setParam s p (ccConv (pidKind p) (clampData b2)))) := by
  have hsilent : ccBinding (silent s) (clampData b1) = some p := h
  rw [exec, execMidiCc, midiControl, hsilent]
  exact congrArg _ (setParam_silent s p _)

end

/-- Settles O41: the word that meets the conditions of the kind is the model's `ccConv`, and PWR of it
and the control change make the same `setParam`. -/
theorem midiCcWritesTheConvertedValue : Obligations.MidiCcWritesTheConvertedValue := by
  intro s ch b1 b2 c val hc hval
  obtain rfl : c = clampData b1 := Fin.ext hc
  obtain rfl : val = (clampData b2).val := hval
  refine ⟨exec_midiCc_of_unbound ch b1 b2, fun p hp w hw => ?_⟩
  obtain rfl : w = ccConv (pidKind p) (clampData b2) := by
    cases hk : pidKind p <;> rw [hk] at hw
    case bool => exact BitVec.eq_of_toNat_eq (hw.trans (ccConv_bool_toNat _).symm)
    case u16 => exact BitVec.eq_of_toNat_eq (hw.trans (ccConv_u16_toNat _).symm)
    case fp32 => exact BitVec.eq_of_toInt_eq (hw.trans (ccConv_fp32_toInt _).symm)
    case byte => exact BitVec.eq_of_toNat_eq (hw.trans (ccConv_byte_toNat _).symm)
  exact ⟨_, exec_pwr_pidId_eq_answered s p _, exec_midiCc_of_bound ch b1 b2 hp⟩

end Sys2Proof.Machine

end

/-! PROOFS. The allocator, MIDI notes and the voice read-back commands (spec/44_voice_alloc.md R330 to
R364). -/

section

namespace Sys2Proof.Machine

/-! ## The allocator (R351) -/

/-- `b` is the lowest index below `k` at which `f` is least. -/
def IsFirstLeast (f : Nat → Nat) (k b : Nat) : Prop :=
  b < k ∧ ∀ v < k, f b ≤ f v ∧ (v < b → f b < f v)

/-- One more index: it replaces the first least one only if it is strictly less. -/
theorem IsFirstLeast.succ {f : Nat → Nat} {k b : Nat} (h : IsFirstLeast f k b) :
    IsFirstLeast f (k + 1) (if f k < f b then k else b) := by
  obtain ⟨hb, hleast⟩ := h
  split
  case isTrue hlt =>
    refine ⟨k.lt_succ_self, Nat.forall_lt_succ_right.mpr ⟨fun v hv => ?_, le_rfl, fun hk => ?_⟩⟩
    · have hv_lt : f k < f v := hlt.trans_le (hleast v hv).1
      exact ⟨hv_lt.le, fun _ => hv_lt⟩
    · exact absurd hk (lt_irrefl k)
  case isFalse hge =>
    refine ⟨hb.trans k.lt_succ_self, Nat.forall_lt_succ_right.mpr ⟨hleast, not_lt.mp hge, fun hk => ?_⟩⟩
    exact absurd hk hb.not_gt

/-- The second loop of R351, over any distance: induction on the number of voices after voice 0. -/
theorem foldl_isFirstLeast (f : Nat → Nat) (k : Nat) :
    IsFirstLeast f (k + 1)
      ((List.range' 1 k).foldl (fun best v => if f v < f best then v else best) 0) := by
  induction k with
  | zero =>
    refine ⟨Nat.one_pos, fun v hv => ?_⟩
    obtain rfl : v = 0 := Nat.lt_one_iff.mp hv
    exact ⟨le_rfl, fun h => absurd h (lt_irrefl 0)⟩
  | succ k ih =>
    rw [List.range'_concat, List.foldl_append, one_mul, Nat.add_comm 1 k]
    exact ih.succ

theorem nearestVoice_isFirstLeast {s : State} (n : Data7) (h : 1 ≤ s.cfg.nv) :
    IsFirstLeast (noteDistance s n) s.cfg.nv (nearestVoice s n) := by
  have hfold := foldl_isFirstLeast (noteDistance s n) (s.cfg.nv - 1)
  rwa [Nat.sub_add_cancel h] at hfold

/-- The two ways a voice is allocated: the first idle one, or with none idle the first of the nearest. -/
theorem allocate_cases {s : State} (n : Data7) (h : 1 ≤ s.cfg.nv) :
    (allocate s n < s.cfg.nv ∧ curNote (voice s (allocate s n)) = 0 ∧
      ∀ v < allocate s n, curNote (voice s v) ≠ 0) ∨
    ((∀ v < s.cfg.nv, curNote (voice s v) ≠ 0) ∧
      IsFirstLeast (noteDistance s n) s.cfg.nv (allocate s n)) := by
  unfold allocate
  split
  next v hfind =>
    obtain ⟨hidle, hv, hfirst⟩ := List.find?_range_eq_some.mp hfind
    exact .inl ⟨List.mem_range.mp hv, by simpa using hidle, by simpa using hfirst⟩
  next hfind =>
    have hbusy := List.find?_range_eq_none.mp hfind
    exact .inr ⟨by simpa using hbusy, nearestVoice_isFirstLeast n h⟩

/-- Settles O44: each way of allocating contradicts the other's condition on the voices. -/
theorem allocatorPrefersIdleThenNearest : Obligations.AllocatorPrefersIdleThenNearest := by
  intro s n hnv
  rcases allocate_cases n hnv with ⟨hlt, hidle, hfirst⟩ | ⟨hbusy, hlt, hleast⟩
  · exact ⟨hlt, fun _ => ⟨hidle, hfirst⟩, fun hbusy => absurd hidle (hbusy _ hlt)⟩
  · exact ⟨hlt, fun ⟨v, hv, hidle⟩ => absurd hidle (hbusy v hv), fun _ => hleast⟩

/-! ## MIDI data bytes (R331) -/

/-- Only the byte 0 is clamped to 0. -/
theorem clampData_val_eq_zero_iff (b : Byte) : (clampData b).val = 0 ↔ b = 0 := by
  have hval : (clampData b).val = min b.toNat 127 := rfl
  have hzero : (0 : Byte).toNat = 0 := rfl
  rw [hval, ← BitVec.toNat_inj, hzero]
  omega

theorem clampData_of_ge {b : Byte} (h : 127 ≤ b.toNat) : clampData b = clampData 127 :=
  Fin.ext (Nat.min_eq_right h)

/-! ## NoteOn (R345, R350) -/

section
variable {s : State} {x : Voice} (ch : BitVec 4) (b1 : Byte) {b2 : Byte} {n : Data7}

theorem engineNoteOn_eq (hx : s.voices[allocate s n]? = some x) :
    engineNoteOn s n =
      { s with
        noteMap := s.noteMap.set n.val (some (BitVec.ofNat 8 (allocate s n)))
        voices := s.voices.set (allocate s n) (voiceNoteOn s.cfg s.params n x) } :=
  modifyVoice_eq (s := setNoteOwner s n _) _ hx

/-- A NoteOn that is no NoteOff in disguise: its velocity has no effect (R332). -/
theorem exec_midiNoteOn_eq (h : s.cfg.vel0IsNoteOff = true → b2 ≠ 0) :
    exec (.midiNoteOn ch b1 b2) s = .next (engineNoteOn (silent s) (clampData b1)) := by
  simp only [exec, execMidiNoteOn, clampData_val_eq_zero_iff, if_neg (not_and.mpr h)]

/-- Under VEL0_IS_NOTEOFF a NoteOn of velocity 0 is a NoteOff that keeps its status byte (R332). -/
theorem exec_midiNoteOn_zero (h : s.cfg.vel0IsNoteOff = true) :
    exec (.midiNoteOn ch b1 0) s =
      .next (engineNoteOff (silent s) (midiStatus 0x9 ch) (clampData b1)) := by
  exact if_pos ⟨h, rfl⟩

end

/-- Settles O45: the statement's stack is `stackPush`, and its voice is `voiceNoteOn`. -/
theorem noteOnPlaysOnTheAllocatedVoice : Obligations.NoteOnPlaysOnTheAllocatedVoice := by
  rintro s x ch b1 b2 n _ hn hvel hx rfl
  obtain rfl : n = clampData b1 := Fin.ext hn
  rw [exec_midiNoteOn_eq ch b1 hvel, engineNoteOn_eq (s := silent s) hx]
  rfl

/-! ## NoteOff (R346, R352) -/

section
variable {s : State} (b0 : Byte) {n : Data7}

theorem engineNoteOff_of_no_owner (h : noteOwner s n = none) :
    engineNoteOff s b0 n = diagnose s 3 b0 n := by
  rw [engineNoteOff, h]

theorem engineNoteOff_of_owner {v : Byte} {x : Voice} (h : noteOwner s n = some v)
    (hx : s.voices[v.toNat]? = some x) :
    engineNoteOff s b0 n =
      { s with
        noteMap := s.noteMap.set n.val none
        voices := s.voices.set v.toNat (voiceNoteOff s.cfg s.params n x) } := by
  rw [engineNoteOff, h]
  exact modifyVoice_eq (s := setNoteOwner s n none) _ hx

/-- The status byte of a NoteOff is seen only where the note has no owner. -/
theorem engineNoteOff_eq_of_owner (b0' : Byte) (h : noteOwner s n ≠ none) :
    engineNoteOff s b0 n = engineNoteOff s b0' n := by
  obtain ⟨v, hv⟩ := Option.ne_none_iff_exists'.mp h
  rw [engineNoteOff, engineNoteOff, hv]

theorem engineNoteOff_silent_of_no_owner (h : noteOwner s n = none) :
    engineNoteOff (silent s) b0 n = afterDiag s 3 b0 n.val :=
  (engineNoteOff_of_no_owner (s := silent s) b0 h).trans (diagnose_silent_eq s 3 b0 n)

end

theorem noteOwner_of_getElem? {s : State} {n : Data7} {e : Option Byte}
    (h : s.noteMap[n.val]? = some e) : noteOwner s n = e := by
  rw [noteOwner, List.getD_eq_getElem?_getD, h, Option.getD_some]

/-- Voice NoteOff, by the note left on top. -/
theorem voiceNoteOff_of_getLast?_some {c : Config} {p : Params} {n top : Data7} {x : Voice}
    {st : List Data7} (hst : x.stack.filter (fun m => m != n) = st) (htop : st.getLast? = some top) :
    voiceNoteOff c p n x = voiceRetrigger c p top { x with stack := st } := by
  simp only [voiceNoteOff, hst, htop]

theorem voiceNoteOff_of_getLast?_none {c : Config} {p : Params} {n : Data7} {x : Voice}
    {st : List Data7} (hst : x.stack.filter (fun m => m != n) = st) (htop : st.getLast? = none) :
    voiceNoteOff c p n x = voiceRelease p { x with stack := st } := by
  simp only [voiceNoteOff, hst, htop]

/-- Settles O46: the owner's voice is written by `voiceNoteOff`, with a note left on top or none. -/
theorem noteOffReleasesTheOwner : Obligations.NoteOffReleasesTheOwner := by
  intro s x ch b1 b2 v n st hn hmap hx hst
  obtain rfl : n = clampData b1 := Fin.ext hn
  have hfilter : x.stack.filter (fun m => m != clampData b1) = st := by
    rw [hst]
    exact List.filter_congr fun m _ => by rw [Bool.eq_iff_iff, bne_iff_ne, decide_eq_true_iff]
  have howner : noteOwner (silent s) (clampData b1) = some v := noteOwner_of_getElem? hmap
  rw [exec, execMidiNoteOff, engineNoteOff_of_owner _ howner hx]
  cases htop : st.getLast? with
  | some top => rw [voiceNoteOff_of_getLast?_some hfilter htop]; rfl
  | none => rw [voiceNoteOff_of_getLast?_none hfilter htop]; rfl

/-! ## Ignored messages and ignored bytes (R331 to R333) -/

/-- Settles O47: each ignored message ends in the diagnostic operation, with its own status byte. -/
theorem ignoredMidiRecordsADiagnostic : Obligations.IgnoredMidiRecordsADiagnostic := by
  intro s ch b0 b1 b2 n hn
  obtain rfl : n = clampData b1 := Fin.ext hn
  refine ⟨fun hnone => ⟨?_, fun hvel => ?_⟩, ?_⟩
  · rw [exec, execMidiNoteOff, engineNoteOff_silent_of_no_owner _ hnone]; rfl
  · rw [exec_midiNoteOn_zero ch b1 hvel, engineNoteOff_silent_of_no_owner _ hnone]; rfl
  · rw [exec, execMidiOther, diagnose_silent_eq]; rfl

/-- Settles O48: NoteOn reads its velocity only to tell 0 under VEL0_IS_NOTEOFF, NoteOff reads none, and
both read the note through the clamp. -/
theorem velocityIsIgnored : Obligations.VelocityIsIgnored := by
  refine ⟨rfl, fun s ch b1 b2 b2' => ⟨fun hvel => ?_, fun hvel => ?_, rfl, fun hge => ?_⟩⟩
  · rw [exec_midiNoteOn_eq ch b1 fun h => (hvel h).1, exec_midiNoteOn_eq ch b1 fun h => (hvel h).2]
  · rw [exec_midiNoteOn_zero ch b1 hvel]
    split
    case isTrue hnone => rw [engineNoteOff_silent_of_no_owner _ hnone]; rfl
    case isFalse howner =>
      rw [engineNoteOff_eq_of_owner (s := silent s) _ (midiStatus 0x8 ch) howner]; rfl
  · simp only [exec, execMidiNoteOn, execMidiNoteOff, clampData_of_ge hge, and_self]

/-! ## The read-back commands (R342, R360 to R364) -/

theorem curNote_of_nil {x : Voice} (h : x.stack = []) : curNote x = 0 := by
  rw [curNote, h, List.getLast?_nil]

theorem curNote_of_concat {x : Voice} {low : List Data7} {top : Data7} (h : x.stack = low ++ [top]) :
    curNote x = top.val := by
  rw [curNote, h, List.getLast?_concat]

theorem data7OfWord_of_lt {w : Word} (h : w.toNat < 128) : data7OfWord w = some ⟨w.toNat, h⟩ :=
  dif_pos h

theorem data7OfWord_of_ge {w : Word} (h : 128 ≤ w.toNat) : data7OfWord w = none :=
  dif_neg h.not_gt

/-- The packing of a valid map entry, as a number. -/
theorem entryWord_some (o : Byte) : entryWord (some o) = BitVec.ofNat 32 (256 + o.toNat) := by
  have hor : 256 ||| o.toNat = 256 + o.toNat := (Nat.two_pow_add_eq_or_of_lt o.isLt 1).symm
  have hval : o.toNat < 256 := o.isLt
  have h256 : (0x100#32).toNat = 256 := rfl
  apply BitVec.eq_of_toNat_eq
  rw [entryWord, BitVec.toNat_or, BitVec.toNat_setWidth_of_le (by decide), h256, hor,
    BitVec.toNat_ofNat, Nat.mod_eq_of_lt (by omega)]

section
variable {s : State} {x : Voice} {v : Byte} (w : Word)

section
variable (hv : v.toNat < s.cfg.nv) (hx : s.voices[v.toNat]? = some x)
include hv hx

theorem exec_vpitch_eq_answered : exec (.vpitch v) s = .next (answered s x.pitch) := by
  rw [exec, execVpitch, withVoice_lt hv, voice_of_getElem? hx, ok_eq_answered]

theorem exec_vcur_eq_answered :
    exec (.vcur v) s = .next (answered s (BitVec.ofNat 32 (curNote x))) := by
  rw [exec, execVcur, withVoice_lt hv, voice_of_getElem? hx, ok_eq_answered]

theorem exec_vslen_eq_answered :
    exec (.vslen v) s = .next (answered s (BitVec.ofNat 32 x.stack.length)) := by
  rw [exec, execVslen, withVoice_lt hv, voice_of_getElem? hx, ok_eq_answered]

theorem exec_vstk_of_getElem? {n : Data7} (hn : x.stack[w.toNat]? = some n) :
    exec (.vstk v w) s = .next (answered s (BitVec.ofNat 32 n.val)) := by
  rw [exec, execVstk, withVoice_lt hv, voice_of_getElem? hx, hn, withOperand_some, ok_eq_answered]

theorem exec_vstk_of_length_le (hlen : x.stack.length ≤ w.toNat) :
    exec (.vstk v w) s = .next (afterError s 0x34 .range) := by
  rw [exec, execVstk, withVoice_lt hv, voice_of_getElem? hx, List.getElem?_eq_none hlen,
    withOperand_none]
  exact fail_eq s .vstk (st := .range) nofun

end

theorem exec_vmap_of_getElem? {e : Option Byte} (hw : w.toNat < 128)
    (he : s.noteMap[w.toNat]? = some e) :
    exec (.vmap w) s = .next (answered s (entryWord e)) := by
  rw [exec, execVmap, data7OfWord_of_lt hw, withOperand_some, noteOwner_of_getElem? he,
    ok_eq_answered]

theorem exec_vmap_of_ge (hw : 128 ≤ w.toNat) :
    exec (.vmap w) s = .next (afterError s 0x35 .range) := by
  rw [exec, execVmap, data7OfWord_of_ge hw, withOperand_none]
  exact fail_eq s .vmap (st := .range) nofun

end

/-- Settles O49: each read by its own lemma, VCUR by the stack's two forms and VMAP by the entry's. -/
theorem voiceReadsAnswerTheRegisters : Obligations.VoiceReadsAnswerTheRegisters := by
  intro s x v w hv hx
  refine ⟨exec_vpitch_eq_answered hv hx, fun hnil => ?_, fun low top htop => ?_,
    exec_vslen_eq_answered hv hx, fun n => exec_vstk_of_getElem? w hv hx,
    exec_vstk_of_length_le w hv hx, exec_vmap_of_getElem? w, fun o hw ho => ?_, exec_vmap_of_ge w⟩
  · rw [exec_vcur_eq_answered hv hx, curNote_of_nil hnil]; rfl
  · rw [exec_vcur_eq_answered hv hx, curNote_of_concat htop]
  · rw [exec_vmap_of_getElem? w hw ho, entryWord_some]

end Sys2Proof.Machine

end

/-! PROOFS. The mixer and the output queue (spec/45_mixer_output.md R380 to R391). -/

section

namespace Sys2Proof.Machine

/-! ## MIXPUSH -/

section
variable {s : State}

/-- BUSY leaves the log alone, unlike the other errors (R384, R432). -/
theorem exec_mixpush_of_full (h : s.fifo.length = s.cfg.fifoDepth) :
    exec .mixpush s = .next { s with response := .cmd .busy 0 } := by
  rw [exec, execMixpush, if_pos h, fail, raise_busy]

/-- With room in the queue, MIXPUSH queues and answers the mixed sample, and begins a new sample period
(R384). -/
theorem exec_mixpush_of_room (h : s.fifo.length ≠ s.cfg.fifoDepth) :
    exec .mixpush s = .next
      (answered { s with
        fifo := s.fifo ++ [mixSum s]
        voices := s.voices.map fun x => { x with rendered := false } } (mixSum s)) := by
  rw [exec, execMixpush, if_neg h, ok_eq_answered]

end

/-- A channel's contribution, from its VOUT and LEVEL registers: the level first, then ATTEN (R381, R382). -/
def attenuated (c : Config) (x : Voice) : Word := fmul (fmul x.vout x.level) (atten c)

/-- The channels in ascending order are the voices, and wrapping sums fold to the words' sum (R382). -/
theorem mixSum_eq_sum {s : State} (h : s.voices.length = s.cfg.nv) :
    mixSum s = (s.voices.map (attenuated s.cfg)).sum := by
  calc mixSum s
      = ((List.range s.cfg.nv).map fun ch => attenuated s.cfg (voice s ch)).foldl fadd 0 := by
        rw [List.foldl_map]; rfl
    _ = (s.voices.map (attenuated s.cfg)).sum := by
        rw [map_voice_range s _ h, foldl_fadd]
        exact BitVec.zero_add _

/-- Settles O51: a full queue answers BUSY; otherwise the sample pushed is the sum over the voices. -/
theorem mixpushPushesTheAttenuatedSum : Obligations.MixpushPushesTheAttenuatedSum := by
  intro s hlen _
  exact ⟨exec_mixpush_of_full, fun hroom =>
    ⟨mixSum s, mixSum_eq_sum hlen, exec_mixpush_of_room hroom⟩⟩

/-! ## POP -/

/-- The log after an underrun, with the saturating count as a number (R391). -/
theorem logUnderrun_eq (l : Log) :
    logUnderrun l =
      { l with underrun := true, cntUnderrun := BitVec.ofNat 32 (satSucc l.cntUnderrun) } := by
  rw [logUnderrun, satInc32_eq]

/-- Settles O54: the two forms of the queue. -/
theorem popTakesTheOldestSample : Obligations.PopTakesTheOldestSample := by
  intro s h rest
  refine ⟨fun hcons => ⟨to16 h, exec_pop_cons hcons, to16_toInt h⟩, fun hnil => ?_⟩
  rw [exec_pop_nil hnil, logUnderrun_eq]

end Sys2Proof.Machine

end

/-! PROOFS. What a failing command leaves behind (spec/60_exceptions.md R430 to R432). -/

section

namespace Sys2Proof.Machine

/-- If `t` answers an error to a CMD transaction with opcode byte `opc` that began in `s`, then the error
operation alone led from `s` to `t`. -/
def ErrorsAreRaised (s : State) (opc : Byte) (t : State) : Prop :=
  ∀ st res, t.response = .cmd st res → st ≠ .ok → res = 0 ∧ t = raise s opc st

theorem errorsAreRaised_raise (s : State) (opc : Byte) (st : Status) :
    ErrorsAreRaised s opc (raise s opc st) := by
  intro st' res hresp _
  cases hresp
  exact ⟨rfl, rfl⟩

theorem errorsAreRaised_of_ne_cmd {s t : State} (opc : Byte) (h : ∀ st res, t.response ≠ .cmd st res) :
    ErrorsAreRaised s opc t := fun st res hresp => absurd hresp (h st res)

/-! ## CMD transactions -/

/-! Each check of a command of opcode `o` raises its error from the state the command began in; a run that
ends OK raises none. -/

section
variable {s : State} {o : Opcode}

theorem ok_errorsAreRaised {t : State} {res : Word} : Ends (ErrorsAreRaised s o.byte) (ok t res) := by
  refine .ok fun st res' hresp hst => ?_
  cases hresp
  exact absurd rfl hst

theorem fail_errorsAreRaised {st : Status} : Ends (ErrorsAreRaised s o.byte) (fail s o st) :=
  .next (errorsAreRaised_raise s o.byte st)

theorem withVoice_errorsAreRaised {v : Byte} {k : Nat → Out}
    (hk : ∀ i, Ends (ErrorsAreRaised s o.byte) (k i)) :
    Ends (ErrorsAreRaised s o.byte) (withVoice s o v k) := .ite (hk _) fail_errorsAreRaised

theorem withUnit_errorsAreRaised {α : Type} {u : Option α} {k : α → Out}
    (hk : ∀ x, Ends (ErrorsAreRaised s o.byte) (k x)) :
    Ends (ErrorsAreRaised s o.byte) (withUnit s o u k) := by
  cases u with
  | some x => exact hk x
  | none => exact fail_errorsAreRaised

theorem withOperand_errorsAreRaised {α : Type} {st : Status} {x : Option α} {k : α → Out}
    (hk : ∀ y, Ends (ErrorsAreRaised s o.byte) (k y)) :
    Ends (ErrorsAreRaised s o.byte) (withOperand s o st x k) := by
  cases x with
  | some y => exact hk y
  | none => exact fail_errorsAreRaised

end

/-- R432 for the command of each opcode. The groups are the checks a command makes before its effect. -/
theorem exec_assemble_errorsAreRaised (o : Opcode) (v u : Byte) (a b : Word) (s : State) :
    Ends (ErrorsAreRaised s o.byte) (exec (o.assemble v u a b) s) := by
  cases o
  all_goals rw [Opcode.assemble, exec]
  case nop | fmul | fadd | fsub | fshr | fto16 | fxmix | fifolvl | pkind | papply | paprd | strd | stclr
      | idrd => exact ok_errorsAreRaised
  case vpitch | vcur | vslen | mlvlwr | mlvlrd | mvoutrd =>
    exact withVoice_errorsAreRaised fun _ => ok_errorsAreRaised
  case oprot | oprd | etrig | eretrig | erel | escale | eidx | erdcur | erdst | erdcnt | erdref =>
    exact withVoice_errorsAreRaised fun _ => withUnit_errorsAreRaised fun _ => ok_errorsAreRaised
  case opwr =>
    exact withVoice_errorsAreRaised fun _ => withUnit_errorsAreRaised fun _ =>
      .ite fail_errorsAreRaised ok_errorsAreRaised
  case vout => exact withVoice_errorsAreRaised fun _ => .ite fail_errorsAreRaised ok_errorsAreRaised
  case vstk =>
    exact withVoice_errorsAreRaised fun _ => withOperand_errorsAreRaised fun _ => ok_errorsAreRaised
  case cntrd | cntclr | cfgrd => exact withUnit_errorsAreRaised fun _ => ok_errorsAreRaised
  case vmap | ccrd | pwr => exact withOperand_errorsAreRaised fun _ => ok_errorsAreRaised
  case prd =>
    exact withUnit_errorsAreRaised fun _ => withOperand_errorsAreRaised fun _ =>
      .ite fail_errorsAreRaised ok_errorsAreRaised
  case ccwr =>
    exact withOperand_errorsAreRaised fun _ =>
      .ite (withOperand_errorsAreRaised fun _ => ok_errorsAreRaised) ok_errorsAreRaised
  case mixpush => exact .ite fail_errorsAreRaised ok_errorsAreRaised
  case npop =>
    rw [execNpop]
    split <;> exact ok_errorsAreRaised

/-! ## The other ports -/

/-- An instruction of another port than CMD answers no status (R130). -/
theorem exec_response_ne_cmd {i : Instr} (hi : i.port ≠ .cmd) (s : State) :
    Ends (fun t => ∀ st res, t.response ≠ .cmd st res) (exec i s) := by
  cases i
  case midiNoteOn => exact .ite (.next (by simp)) (.next nofun)
  case midiNoteOff | midiCc => exact .next (by simp)
  case midiOther | reset => exact .next nofun
  case pop =>
    cases h : s.fifo with
    | nil => exact ⟨_, exec_pop_nil h, nofun⟩
    | cons x rest => exact ⟨_, exec_pop_cons h, nofun⟩
  all_goals exact absurd rfl hi

theorem decodeMidi_port (b0 b1 b2 : Byte) : (decodeMidi b0 b1 b2).port = .midiIn := by
  unfold decodeMidi
  split_ifs <;> rfl

/-! ## Every transaction -/

/-- A command word that decodes is of the opcode its byte names, and the other ports raise no error. -/
theorem exec_errorsAreRaised {r : Request} {i : Instr} (hd : decode r = .ok i) (s : State) :
    Ends (ErrorsAreRaised s r.opcByte) (exec i s) := by
  cases r with
  | cmd w a b =>
    obtain ⟨o, v, u, rfl, -, -, rfl⟩ := decodeCmd_ok hd
    rw [opcByte_cmdWord]
    exact exec_assemble_errorsAreRaised o v u a b s
  | midi b0 b1 b2 =>
    cases hd
    exact (exec_response_ne_cmd (by simp [decodeMidi_port]) s).mono fun _ => errorsAreRaised_of_ne_cmd _
  | audioOut | reset =>
    cases hd
    exact (exec_response_ne_cmd (by decide) s).mono fun _ => errorsAreRaised_of_ne_cmd _

theorem step_errorsAreRaised {s : State} {r : Request} {rest : List Request}
    (hp : s.pending = r :: rest) :
    Ends (ErrorsAreRaised { s with pending := rest } r.opcByte) (step s) := by
  cases hd : decode r with
  | error e =>
    rw [step_of_decode_error hp hd]
    exact .next (errorsAreRaised_raise _ _ .illegal)
  | ok i =>
    rw [step_of_decode_ok hp hd]
    exact exec_errorsAreRaised hd _

/-- The error operation is R432's effect, for every status. -/
theorem raise_eq_ite (s : State) (opc : Byte) (st : Status) :
    raise s opc st =
      if st = .busy then { s with response := .cmd .busy 0 } else afterError s opc st := by
  split
  · next h => rw [h, raise_busy]
  · next h => exact raise_eq_afterError s opc h

/-- Settles O12: every error of a step, ILLEGAL included, is the error operation on the state without the
transaction. -/
theorem errorsChangeOnlyTheLog : Obligations.ErrorsChangeOnlyTheLog := by
  intro s t r rest st res hp hstep hresp hst
  obtain ⟨hres, ht⟩ := (step_errorsAreRaised hp).of_next hstep st res hresp hst
  exact ⟨hres, ht.trans (raise_eq_ite _ _ st)⟩

end Sys2Proof.Machine

end

/-! PROOFS. RESET (spec/70_reset_and_hazards.md R470 to R472). -/

section

namespace Sys2Proof.Machine

theorem exec_reset (s : State) :
    exec .reset s = .next { State.powerOn s.cfg with pending := s.pending } := rfl

theorem perOpGet_initial_phase (u : OpUnit) : perOpGet Voice.initial.phase u = 0 := by
  cases u <;> rfl

/-- With no sticky bit set and both queues empty, STATUS shows FIFO_EMPTY alone (R410). FIFO_FULL is
clear because an instance's queue has room for at least one sample. -/
theorem statusWord_of_quiet {s : State} (hlog : s.log = Log.initial) (hfifo : s.fifo = [])
    (hnq : s.nq = []) (hdepth : 1 ≤ s.cfg.fifoDepth) : statusWord s = 0x10 := by
  have hroom : 0 ≠ s.cfg.fifoDepth := by omega
  simp [statusWord, hlog, hfifo, hnq, hroom, Log.initial, bitWord]

theorem exec_strd_of_quiet {s : State} (hlog : s.log = Log.initial) (hfifo : s.fifo = [])
    (hnq : s.nq = []) (hdepth : 1 ≤ s.cfg.fifoDepth) : exec .strd s = .next (answered s 0x10) := by
  rw [exec, execStrd, statusWord_of_quiet hlog hfifo hnq hdepth, ok_eq_answered]

/-- Settles O60: RESET ends in the power-on state, whose fields are the rows of R471. -/
theorem resetRestoresEveryRegister : Obligations.ResetRestoresEveryRegister := by
  intro s
  refine ⟨_, exec_reset s, rfl, rfl, List.length_replicate, ?voices, List.length_replicate, ?noteMap,
    rfl, rfl, rfl, rfl, rfl, rfl, rfl, ?strd⟩
  case voices =>
    intro x hx
    obtain rfl : x = Voice.initial := List.eq_of_mem_replicate hx
    exact ⟨perOpGet_initial_phase, rfl, rfl, rfl, rfl, rfl, rfl, rfl, rfl⟩
  case noteMap => exact fun e he => List.eq_of_mem_replicate he
  case strd => exact fun hdepth => exec_strd_of_quiet rfl rfl rfl hdepth

end Sys2Proof.Machine

end

/-! PROOFS. The encoding of the transactions (spec/30_encoding.md R131 to R146). -/

section

namespace Sys2Proof

/-! ## Status bytes (R140) -/

section
variable (nibble ch : BitVec 4)

theorem midiStatus_toNat : (midiStatus nibble ch).toNat = nibble.toNat * 16 + ch.toNat :=
  Machine.toNat_append_eq nibble ch

@[simp] theorem midiStatus_nibble : (midiStatus nibble ch).extractLsb' 4 4 = nibble := by
  apply BitVec.eq_of_toNat_eq
  rw [BitVec.extractLsb'_toNat, midiStatus_toNat, Nat.shiftRight_eq_div_pow]
  omega

@[simp] theorem midiStatus_channel : (midiStatus nibble ch).extractLsb' 0 4 = ch := by
  apply BitVec.eq_of_toNat_eq
  rw [BitVec.extractLsb'_toNat, midiStatus_toNat, Nat.shiftRight_zero]
  omega

end

/-- A status byte is its nibble and its channel. -/
theorem midiStatus_of_byte (b : Byte) : midiStatus (b.extractLsb' 4 4) (b.extractLsb' 0 4) = b := by
  apply BitVec.eq_of_toNat_eq
  rw [midiStatus_toNat, BitVec.extractLsb'_toNat, BitVec.extractLsb'_toNat,
    Nat.shiftRight_eq_div_pow, Nat.shiftRight_zero]
  omega

/-- A status byte whose nibble R141 does not name is no message of its own. -/
theorem decodeMidi_of_unnamed {b0 : Byte} (h : midiNibbleNamed b0 = false) (b1 b2 : Byte) :
    decodeMidi b0 b1 b2 = .midiOther b0 b1 b2 := by
  simp only [midiNibbleNamed, Bool.or_eq_false_iff, beq_eq_false_iff_ne] at h
  obtain ⟨⟨hOn, hOff⟩, hCc⟩ := h
  rw [decodeMidi, if_neg hOn, if_neg hOff, if_neg hCc]

/-! ## Decoding an encoded instruction -/

/-- The groups are the fields of the command word that the opcode uses (R137). -/
theorem decode_encode {i : Instr} (h : i.encodable = true) : decode (encode i) = .ok i := by
  cases i
  case midiNoteOn | midiNoteOff | midiCc => simp [encode, decode, decodeMidi]
  case midiOther b0 b1 b2 =>
    have hb0 : midiNibbleNamed b0 = false := by simpa [Instr.encodable] using h
    exact congrArg _ (decodeMidi_of_unnamed hb0 b1 b2)
  case pop | reset => rfl
  all_goals rw [encode, decode]
  case oprot | oprd | opwr | etrig | eretrig | erel | escale | eidx | erdcur | erdst | erdcnt
      | erdref => exact decodeCmd_cmdWord _ _ _ _ _ (.inl rfl) (.inl nofun)
  case vout | vpitch | vcur | vslen | vstk | mlvlwr | mlvlrd | mvoutrd =>
    exact decodeCmd_cmdWord _ _ _ _ _ (.inl rfl) (.inr rfl)
  case prd | cntrd | cntclr | cfgrd =>
    exact decodeCmd_cmdWord _ _ _ _ _ (.inr rfl) (.inl nofun)
  all_goals rw [decodeCmd_cmdWord _ _ _ _ _ (.inr rfl) (.inr rfl), Opcode.assemble]

/-- Settles O1: the bytes of an instruction frame its request, and the request decodes to it. -/
theorem decodeOfEncodeIsIdentity : Obligations.DecodeOfEncodeIsIdentity := by
  intro i h
  refine ⟨decode_encode h, ?_⟩
  rw [decodeBytes, Laws.Framing.readBack]
  exact decode_encode h

/-! ## Encoding a decoded request -/

/-- Column opa of R137. -/
def Opcode.usesOpa : Opcode → Bool
  | .fmul | .fadd | .fsub | .fshr | .fto16 | .fxmix | .oprot | .opwr | .escale | .vout | .vstk | .vmap
  | .mlvlwr | .prd | .pwr | .pkind | .ccwr | .ccrd | .papply | .stclr => true
  | .nop | .oprd | .etrig | .eretrig | .erel | .eidx | .erdcur | .erdst | .erdcnt | .erdref | .vpitch
  | .vcur | .vslen | .mixpush | .mlvlrd | .mvoutrd | .fifolvl | .npop | .paprd | .strd | .cntrd
  | .cntclr | .idrd | .cfgrd => false

/-- Column opb of R137. -/
def Opcode.usesOpb : Opcode → Bool
  | .fmul | .fadd | .fsub | .fshr | .fxmix | .oprot | .pwr | .ccwr => true
  | .nop | .fto16 | .oprd | .opwr | .etrig | .eretrig | .erel | .escale | .eidx | .erdcur | .erdst
  | .erdcnt | .erdref | .vout | .vpitch | .vcur | .vslen | .vstk | .vmap | .mixpush | .mlvlwr | .mlvlrd
  | .mvoutrd | .fifolvl | .prd | .pkind | .ccrd | .npop | .papply | .paprd | .strd | .stclr | .cntrd
  | .cntclr | .idrd | .cfgrd => false

section
variable (o : Opcode) (v u : Byte) (a b : Word)

/-- The assembled instruction holds the fields and the operand words its opcode uses, and its encoding
has 0 for the others (R137, R145). -/
theorem encode_assemble :
    encode (o.assemble v u a b) =
      .cmd (cmdWord o (if o.usesVoice then v else 0) (if o.uclass = .none then 0 else u))
        (if o.usesOpa then a else 0) (if o.usesOpb then b else 0) := by
  cases o <;> rfl

theorem encodable_assemble : (o.assemble v u a b).encodable = true := by
  cases o <;> rfl

variable {o}

theorem assemble_opa_unused (h : o.usesOpa = false) (x : Word) :
    o.assemble v u x b = o.assemble v u a b := by
  revert h
  cases o <;> simp [Opcode.usesOpa, Opcode.assemble]

theorem assemble_opb_unused (h : o.usesOpb = false) (x : Word) :
    o.assemble v u a x = o.assemble v u a b := by
  revert h
  cases o <;> simp [Opcode.usesOpb, Opcode.assemble]

variable {v u}

/-- The fields an opcode does not use are 0 in a word that decodes. -/
theorem encode_assemble_of_decodes (hv : o.usesVoice = true ∨ v = 0)
    (hu : o.uclass ≠ .none ∨ u = 0) :
    encode (o.assemble v u a b) =
      .cmd (cmdWord o v u) (if o.usesOpa then a else 0) (if o.usesOpb then b else 0) := by
  have hv' : (if o.usesVoice then v else 0) = v := ite_eq_left_iff.mpr fun h => (hv.resolve_left h).symm
  have hu' : (if o.uclass = .none then 0 else u) = u :=
    ite_eq_right_iff.mpr fun h => (hu.resolve_left (not_not.mpr h)).symm
  rw [encode_assemble, hv', hu']

end

/-- Each operand word is encoded as it came, or is 0 and the opcode ignores it (R145). -/
theorem encode_of_decodeCmd_ok {w a b : Word} {i : Instr} (h : decodeCmd w a b = .ok i) :
    i.encodable = true ∧ ∃ a' b', encode i = .cmd w a' b' ∧
      (a' = a ∨ a' = 0 ∧ ∀ x, decodeCmd w x b = .ok i) ∧
      (b' = b ∨ b' = 0 ∧ ∀ x, decodeCmd w a x = .ok i) := by
  obtain ⟨o, v, u, rfl, hv, hu, rfl⟩ := decodeCmd_ok h
  refine ⟨encodable_assemble o v u a b, _, _, encode_assemble_of_decodes a b hv hu, ?_, ?_⟩
  · cases ha : o.usesOpa with
    | true => exact .inl rfl
    | false =>
      refine .inr ⟨rfl, fun x => ?_⟩
      rw [decodeCmd_cmdWord o v u x b hv hu, assemble_opa_unused v u a b ha]
  · cases hb : o.usesOpb with
    | true => exact .inl rfl
    | false =>
      refine .inr ⟨rfl, fun x => ?_⟩
      rw [decodeCmd_cmdWord o v u a x hv hu, assemble_opb_unused v u a b hb]

/-- A message keeps its status byte: the nibble by its constructor, the channel as a field. -/
theorem encode_decodeMidi (b0 b1 b2 : Byte) : encode (decodeMidi b0 b1 b2) = .midi b0 b1 b2 := by
  have hmsg : ∀ {nibble : BitVec 4}, b0.extractLsb' 4 4 = nibble →
      Request.midi (midiStatus nibble (b0.extractLsb' 0 4)) b1 b2 = .midi b0 b1 b2 := by
    rintro _ rfl
    rw [midiStatus_of_byte]
  unfold decodeMidi
  split_ifs with hOn hOff hCc
  · exact hmsg hOn
  · exact hmsg hOff
  · exact hmsg hCc
  · rfl

theorem encodable_decodeMidi (b0 b1 b2 : Byte) : (decodeMidi b0 b1 b2).encodable = true := by
  unfold decodeMidi
  split_ifs with hOn hOff hCc
  case neg => simp [Instr.encodable, midiNibbleNamed, hOn, hOff, hCc]
  all_goals rfl

/-- Settles O2, port by port. -/
theorem encodeOfDecodeIsTheRequest : Obligations.EncodeOfDecodeIsTheRequest := by
  intro r i h
  cases r with
  | cmd w a b =>
    obtain ⟨henc, a', b', he, ha, hb⟩ := encode_of_decodeCmd_ok h
    exact ⟨henc, a', b', he, he ▸ decode_encode henc, ha, hb⟩
  | midi b0 b1 b2 =>
    cases h
    exact ⟨encodable_decodeMidi b0 b1 b2, encode_decodeMidi b0 b1 b2⟩
  | audioOut | reset =>
    cases h
    exact ⟨rfl, rfl⟩

/-! ## The opcode map -/

/-- Settles O3: each word is evaluated. -/
theorem spelledOutWordsDecode : Obligations.SpelledOutWordsDecode := by
  unfold Obligations.SpelledOutWordsDecode
  decide

/-- Settles O4: a row of the map is the command word of its opcode, in one of four shapes by the fields
the opcode uses. -/
theorem commandWordsOfTheOpcodeMap : Obligations.CommandWordsOfTheOpcodeMap := by
  intro v u a b
  have plain := fun o => decodeCmd_cmdWord o 0 0 a b (.inr rfl) (.inr rfl)
  have withV := fun o h => decodeCmd_cmdWord o v 0 a b (.inl h) (.inr rfl)
  have withU := fun o h => decodeCmd_cmdWord o 0 u a b (.inr rfl) (.inl h)
  have withVU := fun o h h' => decodeCmd_cmdWord o v u a b (.inl h) (.inl h')
  exact ⟨plain .nop, plain .fmul, plain .fadd, plain .fsub, plain .fshr, plain .fto16, plain .fxmix,
    withVU .oprot rfl nofun, withVU .oprd rfl nofun, withVU .opwr rfl nofun,
    withVU .etrig rfl nofun, withVU .eretrig rfl nofun, withVU .erel rfl nofun,
    withVU .escale rfl nofun, withVU .eidx rfl nofun, withVU .erdcur rfl nofun,
    withVU .erdst rfl nofun, withVU .erdcnt rfl nofun, withVU .erdref rfl nofun,
    withV .vout rfl, withV .vpitch rfl, withV .vcur rfl, withV .vslen rfl, withV .vstk rfl,
    plain .vmap, plain .mixpush, withV .mlvlwr rfl, withV .mlvlrd rfl, withV .mvoutrd rfl,
    plain .fifolvl, withU .prd nofun, plain .pwr, plain .pkind, plain .ccwr, plain .ccrd, plain .npop,
    plain .papply, plain .paprd, plain .strd, plain .stclr, withU .cntrd nofun, withU .cntclr nofun,
    plain .idrd, withU .cfgrd nofun⟩

/-- R135's checks that end in ILLEGAL, on the opcode a word names. -/
theorem decodes_iff (opc v u z : Byte) (a b : Word) :
    (∃ i, decode (.cmd (opc ++ v ++ u ++ z) a b) = .ok i) ↔
      ∃ o : Opcode, o.byte = opc ∧ z = 0 ∧ (v = 0 ∨ o.usesVoice = true) ∧
        (u = 0 ∨ o.uclass ≠ .none) := by
  constructor
  · rintro ⟨i, h⟩
    obtain ⟨o, v', u', hw, hv, hu, -⟩ := decodeCmd_ok h
    rw [cmdWord] at hw
    have hopc := congrArg cmdOpc hw
    have hv' := congrArg cmdV hw
    have hu' := congrArg cmdU hw
    have hz := congrArg cmdZ hw
    simp only [cmdOpc_fields, cmdV_fields, cmdU_fields, cmdZ_fields] at hopc hv' hu' hz
    subst hopc hv' hu' hz
    exact ⟨o, rfl, rfl, hv.symm, hu.symm⟩
  · rintro ⟨o, rfl, rfl, hv, hu⟩
    exact ⟨_, decodeCmd_cmdWord o v u a b hv.symm hu.symm⟩

/-- The opcode bytes of R137, by ranges. -/
theorem byte_range_iff (b : Byte) :
    (∃ o : Opcode, o.byte = b) ↔
      b.toNat ≤ 0x06 ∨ (0x10 ≤ b.toNat ∧ b.toNat ≤ 0x12) ∨ (0x20 ≤ b.toNat ∧ b.toNat ≤ 0x28) ∨
        (0x30 ≤ b.toNat ∧ b.toNat ≤ 0x35) ∨ (0x40 ≤ b.toNat ∧ b.toNat ≤ 0x44) ∨
        (0x50 ≤ b.toNat ∧ b.toNat ≤ 0x57) ∨ (0x60 ≤ b.toNat ∧ b.toNat ≤ 0x65) := by
  have hdec : (∃ o : Opcode, o.byte = b) ↔ (Opcode.ofByte b).isSome = true := by
    rw [Option.isSome_iff_exists]
    exact ⟨fun ⟨o, ho⟩ => ⟨o, ho ▸ ofByte_byte o⟩, fun ⟨o, ho⟩ => ⟨o, byte_of_ofByte ho⟩⟩
  rw [hdec]
  clear hdec
  revert b
  decide

/-- Column V of R137, by ranges of the opcode byte. -/
theorem usesVoice_iff (o : Opcode) :
    o.usesVoice = true ↔
      (0x10 ≤ o.byte.toNat ∧ o.byte.toNat ≤ 0x12) ∨ (0x20 ≤ o.byte.toNat ∧ o.byte.toNat ≤ 0x28) ∨
        (0x30 ≤ o.byte.toNat ∧ o.byte.toNat ≤ 0x34) ∨ (0x41 ≤ o.byte.toNat ∧ o.byte.toNat ≤ 0x43) := by
  cases o <;> decide

/-- Column U of R137, by ranges of the opcode byte. -/
theorem uclass_ne_none_iff (o : Opcode) :
    o.uclass ≠ .none ↔
      (0x10 ≤ o.byte.toNat ∧ o.byte.toNat ≤ 0x12) ∨ (0x20 ≤ o.byte.toNat ∧ o.byte.toNat ≤ 0x28) ∨
        o.byte = 0x50 ∨ o.byte = 0x62 ∨ o.byte = 0x63 ∨ o.byte = 0x65 := by
  cases o <;> decide

/-- Settles O5: the checks on the opcode named, with the columns of R137 read as ranges of its byte. -/
theorem onlyTheOpcodeMapDecodes : Obligations.OnlyTheOpcodeMapDecodes := by
  intro opc v u z a b
  rw [decodes_iff, ← byte_range_iff]
  constructor
  · rintro ⟨o, rfl, hz, hv, hu⟩
    exact ⟨⟨o, rfl⟩, hz, hv.imp_right (usesVoice_iff o).mp, hu.imp_right (uclass_ne_none_iff o).mp⟩
  · rintro ⟨⟨o, rfl⟩, hz, hv, hu⟩
    exact ⟨o, rfl, hz, hv.imp_right (usesVoice_iff o).mpr, hu.imp_right (uclass_ne_none_iff o).mpr⟩

end Sys2Proof

end

/-! PROOFS. What a transaction can do, said once (spec/20_memory.md, spec/60_exceptions.md R430 to R436), and
what follows for every step: its order, its statuses, the registers it writes. -/

section

namespace Sys2Proof.Machine

/-! ## Updates of voices that leave the notes alone -/

/-- The voices `vs` hold the notes of `s`, and each phase that lay in the sine ROM still does. -/
structure KeepsNotes (s : State) (vs : List Voice) : Prop where
  count : vs.length = s.voices.length
  stack : ∀ v, (vs.getD v Voice.initial).stack = (voice s v).stack
  phase : ∀ v u, perOpGet (voice s v).phase u < s.cfg.sr →
    perOpGet (vs.getD v Voice.initial).phase u < s.cfg.sr

section
variable {s : State} {vs : List Voice} {v : Nat} {y : Voice}

theorem KeepsNotes.refl (s : State) : KeepsNotes s s.voices := ⟨rfl, fun _ => rfl, fun _ _ h => h⟩

theorem KeepsNotes.set (h : KeepsNotes s vs) (hstack : y.stack = (voice s v).stack)
    (hphase : ∀ u, perOpGet (voice s v).phase u < s.cfg.sr → perOpGet y.phase u < s.cfg.sr) :
    KeepsNotes s (vs.set v y) := by
  rcases Nat.lt_or_ge v vs.length with hv | hv
  · have hget : ∀ w, (vs.set v y).getD w Voice.initial = if v = w then y else vs.getD w Voice.initial :=
      fun w => voice_setVoice { s with voices := vs } v w y hv
    refine ⟨List.length_set.trans h.count, fun w => ?_, fun w u hu => ?_⟩
    · rw [hget]
      split
      case isTrue hw => exact hw ▸ hstack
      case isFalse => exact h.stack w
    · rw [hget]
      split
      case isTrue hw => exact hphase u (hw ▸ hu)
      case isFalse => exact h.phase w u hu
  · rwa [List.set_eq_of_length_le hv]

theorem keepsNotes_set (hstack : y.stack = (voice s v).stack) (hphase : y.phase = (voice s v).phase) :
    KeepsNotes s (s.voices.set v y) :=
  (KeepsNotes.refl s).set hstack fun _ hu => hphase ▸ hu

/-- A phase written below SR stays in the sine ROM, and the other phases are kept. -/
theorem keepsNotes_voiceSetPhase {u : OpUnit} {p : Nat} (hp : 0 < s.cfg.sr → p < s.cfg.sr) :
    KeepsNotes s (s.voices.set v (voiceSetPhase (voice s v) u p)) := by
  refine (KeepsNotes.refl s).set rfl fun w hw => ?_
  rw [voiceSetPhase, perOpGet_perOpSet]
  split
  · exact hp (Nat.zero_lt_of_lt hw)
  · exact hw

/-- VOUT writes its voice twice: the VCA advanced, then the sample latched (R380). -/
theorem keepsNotes_vout (sig : Word) :
    KeepsNotes s (modifyVoice (envScale s v .vca sig).1 v
      (fun x => voiceLatch x (envScale s v .vca sig).2)).voices := by
  have hadvance : KeepsNotes s (envScale s v .vca sig).1.voices :=
    keepsNotes_set (envAdvance_stack ..) (envAdvance_phase ..)
  exact hadvance.set (hadvance.stack v) (hadvance.phase v)

/-- An update of every voice that leaves a voice after reset as it is. -/
theorem keepsNotes_map {f : Voice → Voice} (hstack : ∀ x, (f x).stack = x.stack)
    (hphase : ∀ x, (f x).phase = x.phase) (hinit : f Voice.initial = Voice.initial) :
    KeepsNotes s (s.voices.map f) := by
  have hget : ∀ v, (s.voices.map f).getD v Voice.initial = f (voice s v) := fun v => by
    simpa only [voice, hinit] using List.getD_map s.voices Voice.initial f
  exact ⟨List.length_map .., fun v => by rw [hget, hstack], fun v u hu => by rwa [hget, hphase]⟩

end

/-! ## What an instruction can do -/

/-- The errors of each command (R431). -/
def MayRaise (i : Instr) : Status → Prop
  | .ok | .illegal => False
  | .range => i.voiceField ≠ none ∨ i.unitField ≠ none ∨ (∃ n, i = .vmap n) ∨
      (∃ c x, i = .ccwr c x) ∨ ∃ c, i = .ccrd c
  | .badId => (∃ u id, i = .prd u id) ∨ (∃ id x, i = .pwr id x) ∨ ∃ c x, i = .ccwr c x
  | .kind => ∃ u id, i = .prd u id
  | .busy => i = .mixpush
  | .hazard => ∃ v sig, i = .vout v sig

/-- The commands that only answer: the reads of R105 with no side effect, the FPU commands and NOP. -/
def onlyAnswers : Instr → Bool
  | .nop | .fmul _ _ | .fadd _ _ | .fsub _ _ | .fshr _ _ | .fto16 _ | .fxmix _ _ | .oprd _ _
  | .erdcur _ _ | .erdst _ _ | .erdcnt _ _ | .erdref _ _ | .vpitch _ | .vcur _ | .vslen _ | .vstk _ _
  | .vmap _ | .mlvlrd _ | .mvoutrd _ | .fifolvl | .prd _ _ | .pkind _ | .ccrd _ | .paprd | .strd
  | .cntrd _ | .idrd | .cfgrd _ => true
  | _ => false

/-- What a command that ends OK makes of the state before it answers. -/
inductive Effect : Instr → State → State → Prop
  | none {i s} : Effect i s s
  | voices {i s vs} (hi : onlyAnswers i = false) (h : KeepsNotes s vs) :
      Effect i s { s with voices := vs }
  | mixpush {s vs acc} (hroom : s.fifo.length ≠ s.cfg.fifoDepth) (h : KeepsNotes s vs) :
      Effect .mixpush s { s with fifo := s.fifo ++ [acc], voices := vs }
  | pwr {id x s p} : Effect (.pwr id x) s (setParam s p x)
  | bind {cc x s c p} : Effect (.ccwr cc x) s (bindCc s c p)
  | unbind {cc x s c} : Effect (.ccwr cc x) s (unbindCc s c)
  | npop {s p rest} (h : s.nq = p :: rest) : Effect .npop s { s with nq := rest }
  | papply {w s f} : Effect (.papply w) s { s with fbOwner := f, algActive := s.params.algorithm }
  | stclr {m s} : Effect (.stclr m) s { s with log := logClearSticky s.log m }
  | cntclr {u s k} : Effect (.cntclr u) s { s with log := logZero s.log k }

/-- How an instruction can end: a command in an error or with an answer, a message with one of the engine's
operations, a POP with a sample or an underrun, a RESET at power-on. -/
inductive Ending : Instr → State → State → Prop
  | raises {i s opc st} (h : MayRaise i st) : Ending i s (raise s opc st)
  | answers {i s t res} (h : Effect i s t) : Ending i s (respond t .ok res)
  | noteOn {ch b1 b2 s n} : Ending (.midiNoteOn ch b1 b2) s (engineNoteOn (silent s) n)
  | noteOff {i s b0 n} (hi : Instr.port i = .midiIn) : Ending i s (engineNoteOff (silent s) b0 n)
  | control {ch b1 b2 s b0 c val} : Ending (.midiCc ch b1 b2) s (midiControl (silent s) b0 c val)
  | ignored {b0 b1 b2 s cause c} : Ending (.midiOther b0 b1 b2) s (diagnose (silent s) cause b0 c)
  | underrun {s} : Ending .pop s { s with log := logUnderrun s.log, response := .audio 0 true }
  | sample {s x rest} (h : s.fifo = x :: rest) :
      Ending .pop s { s with fifo := rest, response := .audio (to16 x) false }
  | reset {s} : Ending .reset s { State.powerOn s.cfg with pending := s.pending }

/-! Each check of a command ends it in an error that the command may raise, or lets it go on. -/

section
variable {i : Instr} {s : State} {o : Opcode}

theorem ok_ending {t : State} {res : Word} (h : Effect i s t) : Ends (Ending i s) (ok t res) :=
  .ok (.answers h)

theorem fail_ending {st : Status} (h : MayRaise i st) : Ends (Ending i s) (fail s o st) :=
  .next (.raises h)

theorem withVoice_ending {v : Byte} {k : Nat → Out} (hi : i.voiceField ≠ none)
    (hk : ∀ n, Ends (Ending i s) (k n)) : Ends (Ending i s) (withVoice s o v k) :=
  .ite (hk _) (fail_ending (st := .range) (.inl hi))

theorem withUnit_ending {α : Type} {u : Option α} {k : α → Out} (hi : i.unitField ≠ none)
    (hk : ∀ x, Ends (Ending i s) (k x)) : Ends (Ending i s) (withUnit s o u k) := by
  cases u with
  | some x => exact hk x
  | none => exact fail_ending (st := .range) (.inr (.inl hi))

theorem withOperand_ending {α : Type} {st : Status} {x : Option α} {k : α → Out} (hi : MayRaise i st)
    (hk : ∀ y, Ends (Ending i s) (k y)) : Ends (Ending i s) (withOperand s o st x k) := by
  cases x with
  | some y => exact hk y
  | none => exact fail_ending hi

end

/-- The groups are the checks an instruction makes before its effect, and the effect. -/
theorem exec_ending (i : Instr) (s : State) : Ends (Ending i s) (exec i s) := by
  cases i
  all_goals rw [exec]
  case nop | fmul | fadd | fsub | fshr | fto16 | fxmix | fifolvl | pkind | paprd | strd | idrd =>
    exact ok_ending .none
  case vpitch | vcur | vslen | mlvlrd | mvoutrd => exact withVoice_ending nofun fun _ => ok_ending .none
  case oprd | erdcur | erdst | erdcnt | erdref =>
    exact withVoice_ending nofun fun _ => withUnit_ending nofun fun _ => ok_ending .none
  case vstk v idx =>
    exact withVoice_ending nofun fun _ => withOperand_ending (.inl nofun) fun _ => ok_ending .none
  case cntrd | cfgrd => exact withUnit_ending nofun fun _ => ok_ending .none
  case vmap note => exact withOperand_ending (.inr (.inr (.inl ⟨note, rfl⟩))) fun _ => ok_ending .none
  case ccrd cc =>
    exact withOperand_ending (.inr (.inr (.inr (.inr ⟨cc, rfl⟩)))) fun _ => ok_ending .none
  case prd u id =>
    exact withUnit_ending nofun fun _ => withOperand_ending (.inl ⟨u, id, rfl⟩) fun _ =>
      .ite (fail_ending (st := .kind) ⟨u, id, rfl⟩) (ok_ending .none)
  case etrig =>
    exact withVoice_ending nofun fun _ => withUnit_ending nofun fun _ =>
      ok_ending (.voices rfl (keepsNotes_set (envTrigger_stack ..) (envTrigger_phase ..)))
  case eretrig =>
    exact withVoice_ending nofun fun _ => withUnit_ending nofun fun _ =>
      ok_ending (.voices rfl (keepsNotes_set (envRetrigger_stack ..) (envRetrigger_phase ..)))
  case erel =>
    exact withVoice_ending nofun fun _ => withUnit_ending nofun fun _ =>
      ok_ending (.voices rfl (keepsNotes_set (envRelease_stack ..) (envRelease_phase ..)))
  case escale | eidx =>
    exact withVoice_ending nofun fun _ => withUnit_ending nofun fun _ =>
      ok_ending (.voices rfl (keepsNotes_set (envAdvance_stack ..) (envAdvance_phase ..)))
  case oprot =>
    refine withVoice_ending nofun fun _ => withUnit_ending nofun fun _ =>
      ok_ending (.voices rfl (keepsNotes_voiceSetPhase fun hsr => ?_))
    unfold rotatePhase
    dsimp only
    split
    · exact pstep_lt _ _ hsr
    · exact pstep_lt _ _ hsr
  case opwr =>
    refine withVoice_ending nofun fun _ => withUnit_ending nofun fun _ => ?_
    split
    · exact fail_ending (st := .range) (.inl nofun)
    · next h => exact ok_ending (.voices rfl (keepsNotes_voiceSetPhase fun _ => not_le.mp h))
  case vout v sig =>
    exact withVoice_ending nofun fun _ => .ite (fail_ending (st := .hazard) ⟨v, sig, rfl⟩)
      (ok_ending (.voices rfl (keepsNotes_vout sig)))
  case mlvlwr => exact withVoice_ending nofun fun _ => ok_ending (.voices rfl (keepsNotes_set rfl rfl))
  case mixpush =>
    unfold execMixpush
    split
    · exact fail_ending (st := .busy) rfl
    · next hroom => exact ok_ending (.mixpush hroom (keepsNotes_map (fun _ => rfl) (fun _ => rfl) rfl))
  case pwr id x => exact withOperand_ending (.inr (.inl ⟨id, x, rfl⟩)) fun _ => ok_ending .pwr
  case ccwr cc x =>
    exact withOperand_ending (.inr (.inr (.inr (.inl ⟨cc, x, rfl⟩)))) fun _ =>
      .ite (withOperand_ending (.inr (.inr ⟨cc, x, rfl⟩)) fun _ => ok_ending .bind) (ok_ending .unbind)
  case npop =>
    unfold execNpop
    split
    · exact ok_ending .none
    · next h => exact ok_ending (.npop h)
  case papply => exact ok_ending .papply
  case stclr => exact ok_ending .stclr
  case cntclr => exact withUnit_ending nofun fun _ => ok_ending .cntclr
  case midiNoteOn => exact .ite (.next (.noteOff rfl)) (.next .noteOn)
  case midiNoteOff => exact .next (.noteOff rfl)
  case midiCc => exact .next .control
  case midiOther => exact .next .ignored
  case pop =>
    unfold execPop
    split
    · next h => exact .next (.sample h)
    · exact .next .underrun
  case reset => exact .next .reset

/-! ## One step -/

theorem step_of_idle {s : State} (h : s.pending = []) : step s = .next s := by
  simp only [step, fetch, h]

/-- A transaction that decodes ends as its instruction can; one that does not ends with ILLEGAL. -/
theorem step_ending {s : State} {r : Request} {rest : List Request} (hp : s.pending = r :: rest) :
    Ends (fun t => (∃ i, decode r = .ok i ∧ Ending i { s with pending := rest } t) ∨
      t = rejectRequest { s with pending := rest } r) (step s) := by
  cases hd : decode r with
  | error e =>
    rw [step_of_decode_error hp hd]
    exact .next (.inr rfl)
  | ok i =>
    rw [step_of_decode_ok hp hd]
    exact (exec_ending i _).mono fun t ht => .inl ⟨i, rfl, ht⟩

/-- Settles O6: the step on a pending transaction that decodes. -/
theorem stepRunsTheDecodedInstruction : Obligations.StepRunsTheDecodedInstruction :=
  fun _ _ _ _ => step_of_decode_ok

/-- Settles O7: a request that does not decode is rejected, by the operation that takes every error. -/
theorem undecodableCommandAnswersIllegal : Obligations.UndecodableCommandAnswersIllegal := by
  intro s opc v u z a b rest hp hno
  cases hd : decode (.cmd (opc ++ v ++ u ++ z) a b) with
  | ok i => exact absurd hd (hno i)
  | error e =>
    rw [step_of_decode_error hp hd, rejectRequest, raise_eq_afterError _ _ (st := .illegal) nofun, Request.opcByte,
      cmdOpc_fields]

/-! ## The order of transactions and the configuration -/

/-- From `s` to `t` the configuration and the transactions still to come are the same. -/
structure KeepsOrder (s t : State) : Prop where
  cfg : t.cfg = s.cfg
  pending : t.pending = s.pending

theorem Effect.keepsOrder {i : Instr} {s t : State} (h : Effect i s t) : KeepsOrder s t := by
  cases h
  case pwr => exact ⟨setParam_cfg .., setParam_pending ..⟩
  all_goals exact ⟨rfl, rfl⟩

theorem Ending.keepsOrder {i : Instr} {s t : State} (h : Ending i s t) : KeepsOrder s t := by
  cases h
  case answers heff => exact ⟨heff.keepsOrder.cfg, heff.keepsOrder.pending⟩
  case noteOff => exact ⟨engineNoteOff_cfg .., engineNoteOff_pending ..⟩
  case control => exact ⟨midiControl_cfg .., midiControl_pending ..⟩
  all_goals exact ⟨rfl, rfl⟩

theorem step_keepsOrder {s : State} {r : Request} {rest : List Request} (hp : s.pending = r :: rest) :
    Ends (KeepsOrder { s with pending := rest }) (step s) := by
  refine (step_ending hp).mono fun t ht => ?_
  obtain ⟨i, -, hend⟩ | rfl := ht
  · exact hend.keepsOrder
  · exact ⟨rfl, rfl⟩

/-- What every step keeps, idle ones included. -/
theorem step_ends (s : State) :
    Ends (fun t => t.cfg = s.cfg ∧ t.pending = s.pending.tail ∧ (s.pending = [] → t = s)) (step s) := by
  cases hp : s.pending with
  | nil => exact ⟨s, step_of_idle hp, rfl, hp, fun _ => rfl⟩
  | cons r rest => exact (step_keepsOrder hp).mono fun t ht => ⟨ht.cfg, ht.pending, nofun⟩

/-- Settles O8: every ending keeps the transactions still to come. -/
theorem eachStepTakesOneTransaction : Obligations.EachStepTakesOneTransaction :=
  fun s _ hstep => ((step_ends s).of_next hstep).2

/-- Settles O15: every ending keeps the configuration, and RESET starts anew from it. -/
theorem configurationNeverChanges : Obligations.ConfigurationNeverChanges :=
  fun s _ hstep => ((step_ends s).of_next hstep).1

/-- Induction on the number of steps. -/
theorem runs_of_step_next (h : ∀ s : State, ∃ t, step s = .next t) (k : Nat) (s : State) : s.Runs k := by
  induction k generalizing s with
  | zero => exact ⟨s, rfl⟩
  | succ k ih =>
    obtain ⟨t, ht⟩ := h s
    obtain ⟨u, hu⟩ := ih t
    have hstep : core.step s = .next t := ht
    exact ⟨u, by simpa only [Host.Core.run, hstep] using hu⟩

/-- Settles O9: every step ends in a next state. -/
theorem everyRunGoesOn : Obligations.EveryRunGoesOn := by
  have hstep : ∀ s : State, ∃ t, step s = .next t := fun s => (step_ends s).imp fun _ => And.left
  exact ⟨hstep, fun s k => runs_of_step_next hstep k s⟩

/-! ## The latch -/

/-- R41 and R481 for one instruction. -/
theorem Ending.keepsLatch_or {i : Instr} {s t : State} (h : Ending i s t) :
    (t.fbOwner = s.fbOwner ∧ t.algActive = s.algActive) ∨ (∃ w, i = .papply w) ∨ i = .reset := by
  cases h
  case answers heff =>
    cases heff
    case papply w _ => exact .inr (.inl ⟨w, rfl⟩)
    case pwr => exact .inl ⟨setParam_fbOwner .., setParam_algActive ..⟩
    all_goals exact .inl ⟨rfl, rfl⟩
  case noteOff => exact .inl ⟨engineNoteOff_fbOwner .., engineNoteOff_algActive ..⟩
  case control => exact .inl ⟨midiControl_fbOwner .., midiControl_algActive ..⟩
  case reset => exact .inr (.inr rfl)
  all_goals exact .inl ⟨rfl, rfl⟩

/-- Settles O17: a request that does not decode keeps the latch, and of the instructions only the two
named may write it. -/
theorem onlyPapplyAndResetWriteTheLatch : Obligations.OnlyPapplyAndResetWriteTheLatch := by
  intro s t r rest hp hstep hne
  obtain ⟨i, hd, hend⟩ | rfl := (step_ending hp).of_next hstep
  · obtain ⟨hfb, halg⟩ | ⟨w, rfl⟩ | rfl := hend.keepsLatch_or
    · exact absurd hne (by simp [hfb, halg])
    · exact .inl ⟨w, hd⟩
    · exact .inr hd
  · exact absurd hne (by simp [rejectRequest])

/-! ## Statuses and reads -/

/-- A status answered is OK, or an error that the instruction may raise. -/
theorem Ending.status {i : Instr} {s t : State} {st : Status} {res : Word} (h : Ending i s t)
    (hr : t.response = .cmd st res) : st = .ok ∨ MayRaise i st := by
  cases h
  case raises h => cases hr; exact .inr h
  case answers => cases hr; exact .inl rfl
  case noteOff => rw [engineNoteOff_response] at hr; cases hr
  case control => rw [midiControl_response] at hr; cases hr
  all_goals cases hr

/-- Settles O13: the errors a command may raise are R431's, and no other port answers a status. -/
theorem statusesOfEachCommand : Obligations.StatusesOfEachCommand := by
  intro i s t st res hexec hr
  have hport : i.port = .cmd := by
    by_contra hne
    exact (exec_response_ne_cmd hne s).of_next hexec st res hr
  obtain rfl | hmay := ((exec_ending i s).of_next hexec).status hr
  · exact ⟨hport, nofun, nofun, nofun, nofun, nofun, nofun⟩
  · refine ⟨hport, ?_, ?_, ?_, ?_, ?_, ?_⟩
    all_goals rintro rfl; exact hmay

/-- A command that only answers, and ends OK, has no effect. -/
theorem Ending.eq_answered {i : Instr} {s t : State} {res : Word} (h : Ending i s t)
    (hi : onlyAnswers i = true) (hr : t.response = .cmd .ok res) : t = answered s res := by
  cases h
  case raises h => cases hr; exact h.elim
  case answers heff =>
    cases hr
    cases heff
    case none => rfl
    case voices hi' _ => exact absurd hi (by simp [hi'])
    all_goals cases hi
  case noteOff => rw [engineNoteOff_response] at hr; cases hr
  all_goals cases hi

/-- Settles O18: the instructions listed are those that only answer. -/
theorem readsChangeNothing : Obligations.ReadsChangeNothing := by
  intro i s t res hi hexec hr
  refine ((exec_ending i s).of_next hexec).eq_answered ?_ hr
  rcases hi with ⟨_, _, rfl⟩ | ⟨_, rfl⟩ | ⟨_, _, rfl⟩ | ⟨_, _, rfl⟩ | ⟨_, _, rfl⟩ | ⟨_, _, rfl⟩ |
    ⟨_, _, rfl⟩ | ⟨_, rfl⟩ | ⟨_, rfl⟩ | ⟨_, rfl⟩ | ⟨_, _, rfl⟩ | ⟨_, rfl⟩ | ⟨_, rfl⟩ | ⟨_, rfl⟩ | rfl |
    ⟨_, rfl⟩ | rfl | rfl | ⟨_, rfl⟩ | rfl | ⟨_, rfl⟩ | ⟨_, _, rfl⟩ | ⟨_, _, rfl⟩ | ⟨_, _, rfl⟩ |
    ⟨_, _, rfl⟩ | ⟨_, rfl⟩ | ⟨_, _, rfl⟩ | rfl
  all_goals rfl

/-! ## Fields out of range -/

section
variable {s : State} {o : Opcode}

theorem withVoice_eq_afterError {v : Byte} {k : Nat → Out} (h : decide (v.toNat < s.cfg.nv) = false) :
    withVoice s o v k = .next (afterError s o.byte .range) := by
  rw [withVoice_ge (not_lt.mp (of_decide_eq_false h)), fail_eq s o (st := .range) nofun]

theorem withUnit_eq_afterError {α : Type} {u : Option α} {k : α → Out} {c : UClass} {x : Byte}
    (hc : u.isSome = c.admits x) (h : c.admits x = false) :
    withUnit s o u k = .next (afterError s o.byte .range) := by
  obtain rfl : u = none := Option.isNone_iff_eq_none.mp (by rw [← Option.not_isSome, hc, h, Bool.not_false])
  rw [withUnit_none, fail_eq s o (st := .range) nofun]

end

/-- R134. -/
theorem exec_of_voice_out {i : Instr} {s : State} (h : i.voiceOk s.cfg.nv = false) :
    exec i s = .next (afterError s (encode i).opcByte .range) := by
  cases i
  all_goals rw [exec]
  case oprot | oprd | opwr | etrig | eretrig | erel | escale | eidx | erdcur | erdst | erdcnt | erdref
      | vout | vpitch | vcur | vslen | vstk | mlvlwr | mlvlrd | mvoutrd =>
    rw [encode, opcByte_cmdWord]
    exact withVoice_eq_afterError h
  all_goals cases h

/-- R133, after R134. -/
theorem exec_of_unit_out {i : Instr} {s : State} (hv : i.voiceOk s.cfg.nv = true)
    (h : i.unitOk = false) : exec i s = .next (afterError s (encode i).opcByte .range) := by
  cases i
  all_goals rw [exec]
  case oprot v u _ _ | oprd v u | opwr v u _ | etrig v u | eretrig v u | erel v u | escale v u _
      | eidx v u | erdcur v u | erdst v u | erdcnt v u | erdref v u =>
    obtain ⟨hop, henv, hade, hadsr, -⟩ := unit_isSome_iff_admits u
    have hlt := of_decide_eq_true hv
    rw [encode, opcByte_cmdWord]
    refine (withVoice_lt hlt).trans ?_
    exact withUnit_eq_afterError (by assumption) h
  case prd u _ | cntrd u | cntclr u | cfgrd u =>
    obtain ⟨-, -, -, -, hkind, hcnt, hcfg⟩ := unit_isSome_iff_admits u
    rw [encode, opcByte_cmdWord]
    exact withUnit_eq_afterError (by assumption) h
  all_goals cases h

/-- Settles O14: the check of V comes first, then the check of U (R135). -/
theorem voiceOrUnitOutOfRangeAnswersRange : Obligations.VoiceOrUnitOutOfRangeAnswersRange := by
  rintro i s (hv | ⟨hv, hu⟩)
  · exact exec_of_voice_out hv
  · exact exec_of_unit_out hv hu

end Sys2Proof.Machine

end

/-! PROOFS. The invariant of the machine (spec/10_state.md R32 to R46, spec/43_patch.md R289,
spec/44_voice_alloc.md R350 to R353). -/

section

namespace Sys2Proof.Machine

/-! ## Fields the invariant does not read -/

section
variable {s : State} (h : s.Inv)
include h

theorem State.Inv.respond (st : Status) (res : Word) : (respond s st res).Inv := { h with }

theorem State.Inv.silent : (silent s).Inv := { h with }

theorem State.Inv.withPending (rest : List Request) : State.Inv { s with pending := rest } := { h with }

end

/-! ## The capture registers (R46) -/

/-- The reserved bits of the capture registers are 0. -/
structure CapturesReserved (l : Log) : Prop where
  lastErr : l.lastErr.toNat < 2 ^ 16
  lastDiag : l.lastDiag.toNat < 2 ^ 24

theorem State.Inv.captures {s : State} (h : s.Inv) : CapturesReserved s.log :=
  ⟨h.lastErr_reserved, h.lastDiag_reserved⟩

/-- The invariant reads the log for its capture registers alone. -/
theorem State.Inv.withLog {s : State} (h : s.Inv) {l : Log} (hl : CapturesReserved l) :
    State.Inv { s with log := l } :=
  { h with lastErr_reserved := hl.lastErr, lastDiag_reserved := hl.lastDiag }

theorem statusNumber_lt (st : Status) : statusNumber st < 256 := by cases st <;> decide

section
variable {l : Log} (h : CapturesReserved l)
include h

theorem CapturesReserved.error (opc : Byte) (st : Status) : CapturesReserved (logError l opc st) := by
  unfold logError
  split
  · exact h
  · refine ⟨?_, h.lastDiag⟩
    have := opc.isLt
    have := statusNumber_lt st
    rw [lastErr_toNat]
    omega

theorem CapturesReserved.diag (cause b0 : Byte) (b1 : Data7) :
    CapturesReserved (logDiag l cause b0 b1) := by
  refine ⟨h.lastErr, ?_⟩
  have := b0.isLt
  have := cause.isLt
  rw [logDiag, lastDiag_toNat]
  omega

theorem CapturesReserved.zero (k : Nat) : CapturesReserved (logZero l k) :=
  match k with
  | 0 | 1 | 2 | 3 => ⟨h.lastErr, h.lastDiag⟩
  | 4 => ⟨Nat.two_pow_pos 16, h.lastDiag⟩
  | _ + 5 => ⟨h.lastErr, Nat.two_pow_pos 24⟩

end

theorem State.Inv.raise {s : State} (h : s.Inv) (opc : Byte) (st : Status) : (raise s opc st).Inv :=
  (h.withLog (h.captures.error opc st)).respond st 0

theorem State.Inv.diagnose {s : State} (h : s.Inv) (cause b0 : Byte) (b1 : Data7) :
    (diagnose s cause b0 b1).Inv := h.withLog (h.captures.diag cause b0 b1)

/-! ## The voices (R32, R37) -/

theorem exists_getD_of_mem {α : Type} {l : List α} {x : α} (d : α) (h : x ∈ l) : ∃ v, l.getD v d = x := by
  obtain ⟨v, hv, rfl⟩ := List.mem_iff_getElem.mp h
  exact ⟨v, List.getD_eq_getElem l d hv⟩

/-- A voice read is one of the list, or a voice after reset. -/
theorem voice_mem_or (s : State) (v : Nat) : voice s v ∈ s.voices ∨ voice s v = Voice.initial := by
  rcases Nat.lt_or_ge v s.voices.length with hv | hv
  · exact .inl (by rw [voice, List.getD_eq_getElem _ _ hv]; exact List.getElem_mem hv)
  · exact .inr (List.getD_eq_default _ _ hv)

section
variable {s : State} (h : s.Inv) (v : Nat)
include h

theorem State.Inv.sr_pos : 0 < s.cfg.sr := Nat.lt_of_lt_of_le (by decide) h.cfg_legal.sr_range.1

theorem State.Inv.phase_of_voice (u : OpUnit) : perOpGet (voice s v).phase u < s.cfg.sr := by
  rcases voice_mem_or s v with hmem | hinit
  · exact h.phase_in_rom _ hmem u
  · rw [hinit, perOpGet_initial_phase]; exact h.sr_pos

theorem State.Inv.nodup_of_voice : (voice s v).stack.Nodup := by
  rcases voice_mem_or s v with hmem | hinit
  · exact h.stack_distinct _ hmem
  · rw [hinit]; exact List.nodup_nil

/-- Updates that leave the notes alone keep the invariant. -/
theorem State.Inv.withVoices {vs : List Voice} (hk : KeepsNotes s vs) :
    State.Inv { s with voices := vs } :=
  { h with
    voice_count := hk.count.trans h.voice_count
    phase_in_rom := fun x hx u => by
      obtain ⟨v, rfl⟩ := exists_getD_of_mem Voice.initial hx
      exact hk.phase v u (h.phase_of_voice v u)
    stack_distinct := fun x hx => by
      obtain ⟨v, rfl⟩ := exists_getD_of_mem Voice.initial hx
      rw [hk.stack]
      exact h.nodup_of_voice v
    owner_holds_note := fun n v hv => by
      obtain ⟨hlt, hmem⟩ := h.owner_holds_note n v hv
      exact ⟨hlt, (hk.stack v.toNat).symm ▸ hmem⟩ }

end

/-! ## The note map (R38, R350 to R353) -/

theorem noteOwner_setNoteOwner {s : State} (h : s.noteMap.length = 128) (n m : Data7)
    (e : Option Byte) : noteOwner (setNoteOwner s n e) m = if n = m then e else noteOwner s m := by
  have hn : n.val < s.noteMap.length := by omega
  simp only [noteOwner, setNoteOwner_noteMap, List.getD_eq_getElem?_getD, List.getElem?_set, hn,
    if_true, Fin.val_inj]
  split <;> rfl

/-- A note changes hands: its map entry and one voice `v` are written. A new owner is `v` and holds the
note, and `v` keeps every other note it held. -/
theorem State.Inv.setNoteOwner {s : State} (h : s.Inv) {n : Data7} {e : Option Byte} {v : Nat}
    {y : Voice} (hv : v < s.cfg.nv) (hphase : y.phase = (voice s v).phase) (hnodup : y.stack.Nodup)
    (howner : ∀ w, e = some w → w.toNat = v ∧ n ∈ y.stack)
    (hothers : ∀ m ≠ n, m ∈ (voice s v).stack → m ∈ y.stack) :
    (setVoice (setNoteOwner s n e) v y).Inv := by
  have hlen : v < (Machine.setNoteOwner s n e).voices.length := h.voice_count ▸ hv
  refine { h with
    voice_count := List.length_set.trans h.voice_count
    phase_in_rom := fun x hx u => ?_
    stack_distinct := fun x hx => ?_
    note_count := List.length_set.trans h.note_count
    owner_holds_note := fun m w hw => ?_ }
  · obtain hx | rfl := List.mem_or_eq_of_mem_set hx
    · exact h.phase_in_rom x hx u
    · exact hphase ▸ h.phase_of_voice v u
  · obtain hx | rfl := List.mem_or_eq_of_mem_set hx
    · exact h.stack_distinct x hx
    · exact hnodup
  · rw [voice_setVoice _ _ _ _ hlen]
    have hw' : (if n = m then e else noteOwner s m) = some w :=
      (noteOwner_setNoteOwner h.note_count n m e).symm.trans hw
    split at hw'
    case isTrue hnm =>
      subst hnm
      obtain ⟨hwv, hmem⟩ := howner w hw'
      exact ⟨hwv ▸ hv, by rwa [if_pos hwv.symm]⟩
    case isFalse hnm =>
      obtain ⟨hlt, hmem⟩ := h.owner_holds_note m w hw'
      refine ⟨hlt, ?_⟩
      split
      case isTrue hvw => exact hothers m (Ne.symm hnm) (hvw ▸ hmem)
      case isFalse => exact hmem

/-- The allocated voice fits the 8 bits of a map entry, and holds the note. -/
theorem State.Inv.engineNoteOn {s : State} (h : s.Inv) (n : Data7) : (engineNoteOn s n).Inv := by
  obtain ⟨hnv, hnv'⟩ := h.cfg_legal.nv_range
  have hv : allocate s n < s.cfg.nv := (allocatorPrefersIdleThenNearest s n hnv).1
  have hstack := voiceNoteOn_stack s.cfg s.params n (voice s (allocate s n))
  refine h.setNoteOwner hv (voiceNoteOn_phase ..) ?_ (fun w hw => ?_) fun m _ hm => ?_
  · exact hstack ▸ nodup_stackPush n (h.nodup_of_voice _)
  · cases hw
    refine ⟨?_, hstack ▸ (mem_stackPush _ _ _).mpr (.inr rfl)⟩
    rw [BitVec.toNat_ofNat]
    omega
  · exact hstack ▸ (mem_stackPush _ _ _).mpr (.inl hm)

/-- The owner loses the released note alone. -/
theorem State.Inv.engineNoteOff {s : State} (h : s.Inv) (b0 : Byte) (n : Data7) :
    (engineNoteOff s b0 n).Inv := by
  cases howner : noteOwner s n with
  | none => rw [engineNoteOff_of_no_owner b0 howner]; exact h.diagnose ..
  | some v =>
    have hstack := voiceNoteOff_stack s.cfg s.params n (voice s v.toNat)
    have hoff : Machine.engineNoteOff s b0 n = setVoice (Machine.setNoteOwner s n none) v.toNat
        (voiceNoteOff s.cfg s.params n (voice s v.toNat)) := by
      rw [Machine.engineNoteOff, howner]; rfl
    rw [hoff]
    refine h.setNoteOwner (h.owner_holds_note n v howner).1 (voiceNoteOff_phase ..) ?_ nofun
      fun m hm hmem => ?_
    · exact hstack ▸ (h.nodup_of_voice _).filter _
    · exact hstack ▸ List.mem_filter.mpr ⟨hmem, bne_iff_ne.mpr hm⟩

/-! ## The CC map (R39, R289, R293) -/

theorem pairwise_set {α : Type} {R : α → α → Prop} {l : List α} {a : α} (h : l.Pairwise R)
    (hl : ∀ x ∈ l, R x a ∧ R a x) (i : Nat) : (l.set i a).Pairwise R := by
  induction l generalizing i with
  | nil => exact .nil
  | cons x l ih =>
    obtain ⟨hx, hrest⟩ := List.pairwise_cons.mp h
    cases i with
    | zero => exact .cons (fun y hy => (hl y (.tail _ hy)).2) hrest
    | succ i =>
      refine .cons (fun y hy => ?_) (ih hrest (fun y hy => hl y (.tail _ hy)) i)
      obtain hy | rfl := List.mem_or_eq_of_mem_set hy
      · exact hx y hy
      · exact (hl x (.head _)).1

section
variable {s : State} (h : s.Inv) (c : Data7)
include h

theorem State.Inv.unbindCc : (unbindCc s c).Inv :=
  { h with
    cc_count := List.length_set.trans h.cc_count
    cc_distinct := pairwise_set h.cc_distinct
      (fun _ _ => ⟨Decidable.or_iff_not_imp_left.mpr id, .inl rfl⟩) c.val }

/-- No entry but the one written is bound to the register. -/
theorem State.Inv.bindCc (p : Pid) : (bindCc s c p).Inv := by
  refine { h with
    cc_count := (List.length_set.trans (List.length_map _)).trans h.cc_count
    cc_distinct := pairwise_set ?_ ?_ c.val }
  · refine List.pairwise_map.mpr (h.cc_distinct.imp fun {x y} hxy => ?_)
    grind
  · intro x hx
    obtain ⟨e, -, rfl⟩ := List.mem_map.mp hx
    grind

end

/-! ## The queues (R42, R43) -/

theorem State.Inv.notify {s : State} (h : s.Inv) (p : Pid) : (notify s p).Inv := by
  unfold Machine.notify
  split
  case isTrue hroom =>
    exact { h with nq_bound := (List.length_append.trans_le hroom) }
  case isFalse => exact h.withLog ⟨h.lastErr_reserved, h.lastDiag_reserved⟩

theorem State.Inv.setParam {s : State} (h : s.Inv) (p : Pid) (x : Word) : (setParam s p x).Inv :=
  State.Inv.notify (s := { s with params := paramWrite s.params p x }) { h with } p

/-! ## Every transaction -/

theorem State.Inv.powerOn {c : Config} (h : c.Legal) : (State.powerOn c).Inv where
  cfg_legal := h
  voice_count := List.length_replicate
  phase_in_rom := fun x hx u => by
    rw [List.eq_of_mem_replicate hx, perOpGet_initial_phase]
    exact Nat.lt_of_lt_of_le (by decide) h.sr_range.1
  stack_distinct := fun x hx => by
    rw [List.eq_of_mem_replicate hx]
    exact List.nodup_nil
  note_count := List.length_replicate
  owner_holds_note := fun n v hv => by
    have hnone : noteOwner (State.powerOn c) n = none := by
      simp [noteOwner, List.getD, -List.reduceReplicate]
    cases hnone.symm.trans hv
  cc_count := h.cc_size
  cc_distinct := h.cc_distinct
  fifo_bound := Nat.zero_le _
  nq_bound := Nat.zero_le _
  lastErr_reserved := Nat.two_pow_pos 16
  lastDiag_reserved := Nat.two_pow_pos 24

theorem length_le_of_eq_cons {α : Type} {l rest : List α} {x : α} (h : l = x :: rest) :
    rest.length ≤ l.length := h ▸ Nat.le_succ _

theorem Effect.keepsInv {i : Instr} {s t : State} (heff : Effect i s t) (h : s.Inv) : t.Inv := by
  cases heff
  case none => exact h
  case voices vs _ hk => exact h.withVoices hk
  case mixpush vs acc hroom hk =>
    have hlt := Nat.lt_of_le_of_ne h.fifo_bound hroom
    exact { h.withVoices hk with fifo_bound := List.length_append.trans_le hlt }
  case pwr => exact h.setParam ..
  case bind => exact h.bindCc ..
  case unbind => exact h.unbindCc ..
  case npop p rest hnq =>
    exact { h with nq_bound := (length_le_of_eq_cons hnq).trans h.nq_bound }
  case papply => exact { h with }
  case stclr => exact h.withLog ⟨h.lastErr_reserved, h.lastDiag_reserved⟩
  case cntclr => exact h.withLog (h.captures.zero _)

theorem Ending.keepsInv {i : Instr} {s t : State} (hend : Ending i s t) (h : s.Inv) : t.Inv := by
  cases hend
  case raises => exact h.raise ..
  case answers heff => exact (heff.keepsInv h).respond ..
  case noteOn => exact h.silent.engineNoteOn _
  case noteOff => exact h.silent.engineNoteOff ..
  case control =>
    unfold midiControl
    split
    · exact h.silent.diagnose ..
    · exact h.silent.setParam ..
  case ignored => exact h.silent.diagnose ..
  case underrun => exact { h with }
  case sample x rest hfifo =>
    exact { h with fifo_bound := (length_le_of_eq_cons hfifo).trans h.fifo_bound }
  case reset => exact (State.Inv.powerOn h.cfg_legal).withPending _

/-- Settles O10: an idle step changes nothing, and each ending of a transaction keeps the invariant. -/
theorem everyStepKeepsTheInvariant : Obligations.EveryStepKeepsTheInvariant := by
  intro s t h hstep
  cases hp : s.pending with
  | nil =>
    cases (step_of_idle hp).symm.trans hstep
    exact h
  | cons r rest =>
    obtain ⟨i, -, hend⟩ | rfl := (step_ending hp).of_next hstep
    · exact hend.keepsInv (h.withPending rest)
    · exact (h.withPending rest).raise ..

theorem default_legal : Config.default.Legal where
  sr_range := by decide
  nv_range := by decide
  fifo_range := by decide
  notify_range := by decide
  shift_range := by decide
  sine_size := nofun
  note_size := nofun
  cc_size := List.length_replicate
  cc_distinct := List.pairwise_replicate.mpr (.inr (.inl rfl))

/-- Settles O11: power-on meets the invariant, and the default configuration is legal. -/
theorem resetMeetsTheInvariant : Obligations.ResetMeetsTheInvariant :=
  ⟨State.Inv.powerOn default_legal, fun _ => State.Inv.powerOn⟩

end Sys2Proof.Machine

end

/-! PROOFS. Products within full scale, the ROMs, and the operator's phase (spec/40_fixed_point.md R170,
spec/41_operator.md R200 to R208, spec/44_voice_alloc.md R341). -/

section

namespace Sys2Proof.Machine

/-! ## FMUL -/

/-- Settles O20 by the two laws of `fmul`. -/
theorem fmulByOneAndCommuted : Obligations.FmulByOneAndCommuted := by
  intro a b s
  rw [exec_fmul_eq_answered, exec_fmul_eq_answered, exec_fmul_eq_answered, fmul_one, fmul_comm b a]
  exact ⟨rfl, rfl⟩

/-- Settles O21: the exact product is within the 32-bit range. -/
theorem fmulStaysWithinFullScale : Obligations.FmulStaysWithinFullScale := fun a b s ha hb =>
  ⟨fmul a b, exec_fmul_eq_answered a b s, fmul_within ha hb⟩

/-! ## The ROMs -/

theorem sineAt_of_table {c : Config} {t : List Word} {i : Nat} {x : Word} (hc : c.sineRom = some t)
    (hx : t[i]? = some x) : sineAt c i = x := by
  rw [sineAt, hc]
  simp [List.getD, hx]

theorem noteAt_of_table {c : Config} {t : List Word} {n : Data7} {x : Word} (hc : c.noteRom = some t)
    (hx : t[n.val]? = some x) : noteAt c n = x := by
  rw [noteAt, hc]
  simp [List.getD, hx]

theorem noteNominal_length : noteNominal.length = 128 := by
  simp only [noteNominal, List.length_append, List.length_cons, List.length_nil]

/-- The nominal note ROM has a word for each note. -/
theorem noteNominal_getElem? (n : Data7) : noteNominal[n.val]? = some (noteAt Config.default n) := by
  have hn : n.val < noteNominal.length := n.isLt.trans_eq noteNominal_length.symm
  rw [List.getElem?_eq_getElem hn]
  exact congrArg some (List.getD_eq_getElem _ _ hn).symm

/-- Settles O27: the sine entries are evaluated one by one, and the rows of R341 are the nominal note
ROM. -/
theorem romsHoldTheListedEntries : Obligations.RomsHoldTheListedEntries := by
  refine ⟨?_, noteNominal_getElem?, fun c t i n x => ⟨sineAt_of_table, noteAt_of_table⟩⟩
  simp only [List.forall_mem_cons]
  and_intros <;> decide

/-! ## OPROT without modulation or feedback -/

theorem feedbackActive_of_disabled {s : State} (h : s.fbOwner.en = false) (u : OpUnit) :
    feedbackActive s u = false := by
  rw [feedbackActive, h, Bool.false_and, Bool.false_and]

/-- Settles O28: the modulated frequency is the frequency, and its integer part is not negative. -/
theorem oprotPitchIsTheIntegerFrequency : Obligations.OprotPitchIsTheIntegerFrequency := by
  intro s x v u freq hv hx hratio hfb hfreq
  refine ⟨_, exec_oprot_eq_next hv hx u freq 0 rfl, ?_⟩
  have hint : freq.toInt = freq.toNat := by
    rw [BitVec.toInt_eq_toNat_cond] at hfreq ⊢
    have := freq.isLt
    split at hfreq <;> omega
  have hrot : rotatePhase s u (perOpGet x.phase u) freq 0 =
      (perOpGet x.phase u + freq.toNat / 65536) % s.cfg.sr := by
    have hp : 0 ≤ ((perOpGet x.phase u : Nat) : Int) + (freq.toNat : Int) / 65536 := by omega
    rw [rotatePhase_eq_ite rfl, feedbackActive_of_disabled hfb, if_neg Bool.false_ne_true, hratio,
      fmul_one, BitVec.ofNat_eq_ofNat, BitVec.add_zero, pstep_asr_eq, hint, if_neg hp.not_gt]
    norm_cast
  rw [hrot]

/-! ## Reading and writing the phase -/

section
variable {s : State} {x : Voice} {v : Byte} (hv : v.toNat < s.cfg.nv)
  (hx : s.voices[v.toNat]? = some x) (u : OpUnit) {w : Word}
include hv

include hx in
theorem exec_oprd_eq_answered :
    exec (.oprd v (opByte u)) s = .next (answered s (BitVec.ofNat 32 (perOpGet x.phase u))) := by
  rw [exec, execOprd, withVoice_lt hv, opOfU_opByte, withUnit_some, voice_of_getElem? hx,
    ok_eq_answered]

include hx in
theorem exec_opwr_of_lt (hw : w.toNat < s.cfg.sr) :
    exec (.opwr v (opByte u) w) s =
      .next (answered (setVoice s v.toNat (voiceSetPhase x u w.toNat)) 0) := by
  rw [exec, execOpwr, withVoice_lt hv, opOfU_opByte, withUnit_some, if_neg (not_le.mpr hw),
    modifyVoice, voice_of_getElem? hx, ok_eq_answered]

theorem exec_opwr_of_ge (hw : s.cfg.sr ≤ w.toNat) :
    exec (.opwr v (opByte u) w) s = .next (afterError s 0x12 .range) := by
  rw [exec, execOpwr, withVoice_lt hv, opOfU_opByte, withUnit_some, if_pos hw]
  exact fail_eq s .opwr (st := .range) nofun

end

/-- Settles O29: OPRD, and OPWR on both sides of SR. -/
theorem oprdAndOpwrReachThePhase : Obligations.OprdAndOpwrReachThePhase := fun _ _ _ u _ hv hx =>
  ⟨exec_oprd_eq_answered hv hx u, exec_opwr_of_lt hv hx u, exec_opwr_of_ge hv u⟩

end Sys2Proof.Machine

end

/-! PROOFS. The course of the VCA with constant parameters (spec/42_envelope.md R231, R240, R241). -/

section

namespace Sys2Proof.Machine

/-! ## A ramp, sample by sample -/

/-- `f` runs a ramp of `len` samples in state `st` from the captured level `ref`: each sample counts and
takes the gain of its number, and the last one gives `last`. -/
def RunsRamp (f : Adsr → Adsr) (st : AdsrState) (ref : Word) (len : Nat) (gain : Nat → Word)
    (last : Adsr) : Prop :=
  ∀ e : Adsr, e.state = st → e.ref = ref →
    f e = if len ≤ satSucc e.n then last else ⟨st, gain (satSucc e.n), satInc32 e.n, ref⟩

/-- An envelope after `k` samples of a ramp. -/
structure OnRamp (st : AdsrState) (ref : Word) (gain : Nat → Word) (k : Nat) (e : Adsr) : Prop where
  state : e.state = st
  ref_eq : e.ref = ref
  count : e.n.toNat = k
  cur : 1 ≤ k → e.cur = gain k

theorem satSucc_of_lt {n : Word} {k : Nat} (hn : n.toNat = k) (hk : k < 65536) : satSucc n = k + 1 := by
  rw [satSucc, hn]
  omega

section
variable {f : Adsr → Adsr} {st : AdsrState} {ref : Word} {len : Nat} {gain : Nat → Word}
  {last e : Adsr} (hf : RunsRamp f st ref len gain last) (hlen : len ≤ 65536)
include hf hlen

theorem RunsRamp.step {k : Nat} (h : OnRamp st ref gain k e) (hk : k + 1 < len) :
    OnRamp st ref gain (k + 1) (f e) := by
  have hsucc : satSucc e.n = k + 1 := satSucc_of_lt h.count (by omega)
  rw [hf e h.state h.ref_eq, if_neg (by omega)]
  exact ⟨rfl, rfl, by rw [satInc32_toNat, hsucc], fun _ => by rw [hsucc]⟩

/-- Induction on the samples before the last. -/
theorem RunsRamp.iterate (h0 : OnRamp st ref gain 0 e) {k : Nat} (hk : k < len) :
    OnRamp st ref gain k (f^[k] e) := by
  induction k with
  | zero => exact h0
  | succ k ih =>
    rw [Function.iterate_succ_apply']
    exact hf.step hlen (ih (by omega)) hk

theorem RunsRamp.iterate_last (h0 : OnRamp st ref gain 0 e) (hpos : 0 < len) : f^[len] e = last := by
  obtain ⟨k, rfl⟩ := Nat.exists_eq_add_of_le' hpos
  have h := hf.iterate hlen h0 k.lt_succ_self
  have hsucc : satSucc (f^[k] e).n = k + 1 := satSucc_of_lt h.count (by omega)
  rw [Function.iterate_succ_apply', hf _ h.state h.ref_eq, if_pos hsucc.ge]

end

theorem atLeastOne_le (x : BitVec 16) : atLeastOne x ≤ 65536 := by
  have := x.isLt
  rw [atLeastOne]
  omega

/-- The start of a ramp: counter 0. -/
theorem onRamp_zero (gain : Nat → Word) {o : Adsr} (hn : o.n = 0) : OnRamp o.state o.ref gain 0 o :=
  ⟨rfl, rfl, congrArg BitVec.toNat hn, nofun⟩

/-! ## The three ramps of the VCA -/

section
variable (p : VcaParams) (ref : Word)

/-- The gain after `k` samples of the attack, with no wrap. -/
def attackGain (k : Nat) : Word := wrap32 (max ref.toInt ((k * 65536 / atLeastOne p.attack : Nat) : Int))

/-- The gain after `k` samples of the decay, with no wrap. -/
def decayGain (k : Nat) : Word :=
  wrap32 (65536 - Int.tdiv ((65536 - p.sustain.toInt) * k) (atLeastOne p.decay))

/-- The gain after `k` samples of the release, with no wrap. -/
def releaseGain (k : Nat) : Word :=
  wrap32 (ref.toInt - Int.tdiv (ref.toInt * k) (atLeastOne p.release))

theorem attack_runsRamp :
    RunsRamp (adsrAdvance p) .attack ref (atLeastOne p.attack) (attackGain p ref)
      ⟨.decay, wrap32 65536, 0, ref⟩ := by
  rintro e hst rfl
  exact adsrAdvance_attack hst

theorem decay_runsRamp :
    RunsRamp (adsrAdvance p) .decay ref (atLeastOne p.decay) (decayGain p)
      ⟨.sustain, p.sustain, 0, ref⟩ := by
  rintro e hst rfl
  exact adsrAdvance_decay hst

theorem release_runsRamp :
    RunsRamp (adsrAdvance p) .release ref (atLeastOne p.release) (releaseGain p ref)
      ⟨.complete, 0, 0, ref⟩ := by
  rintro e hst rfl
  exact adsrAdvance_release hst

end

/-! ## The two holds of the VCA -/

section
variable (p : VcaParams) {o : Adsr}

theorem iterate_sustain_state (h : o.state = .sustain) (k : Nat) :
    ((adsrAdvance p)^[k] o).state = .sustain := by
  induction k with
  | zero => exact h
  | succ k ih => rw [Function.iterate_succ_apply', adsrAdvance_sustain ih]

theorem iterate_complete_state (h : o.state = .complete) (k : Nat) :
    ((adsrAdvance p)^[k] o).state = .complete := by
  induction k with
  | zero => exact h
  | succ k ih => rw [Function.iterate_succ_apply', adsrAdvance_complete ih]

theorem iterate_sustain_cur (h : o.state = .sustain) {k : Nat} (hk : 1 ≤ k) :
    ((adsrAdvance p)^[k] o).cur = p.sustain := by
  obtain ⟨k, rfl⟩ := Nat.exists_eq_add_of_le' hk
  rw [Function.iterate_succ_apply', adsrAdvance_sustain (iterate_sustain_state p h k)]

theorem iterate_complete_cur (h : o.state = .complete) {k : Nat} (hk : 1 ≤ k) :
    ((adsrAdvance p)^[k] o).cur = 0 := by
  obtain ⟨k, rfl⟩ := Nat.exists_eq_add_of_le' hk
  rw [Function.iterate_succ_apply', adsrAdvance_complete (iterate_complete_state p h k)]

end

/-- Settles O35: each ramp by its samples before the last, with a gain that does not wrap, and by its
last sample; then the two holds. -/
theorem adsrCourseTakesItsSampleCounts : Obligations.AdsrCourseTakesItsSampleCounts := by
  intro p o k hn
  have h0 : ∀ {st} (gain), o.state = st → OnRamp st o.ref gain 0 o :=
    fun gain hst => hst ▸ onRamp_zero gain hn
  have hattack := attack_runsRamp p o.ref
  have hdecay := decay_runsRamp p o.ref
  have hrelease := release_runsRamp p o.ref
  refine ⟨fun hst hk hlt => ?_,
    fun hst => hattack.iterate_last (atLeastOne_le _) (h0 _ hst) (atLeastOne_pos _),
    fun hst hk hlt => ?_,
    fun hst => hdecay.iterate_last (atLeastOne_le _) (h0 _ hst) (atLeastOne_pos _),
    fun hst hk => iterate_sustain_cur p hst hk,
    fun hst hk hlt => ?_,
    fun hst => hrelease.iterate_last (atLeastOne_le _) (h0 _ hst) (atLeastOne_pos _),
    fun hst hk => iterate_complete_cur p hst hk⟩
  · have h := hattack.iterate (atLeastOne_le _) (h0 _ hst) hlt
    exact ⟨h.state, (congrArg BitVec.toInt (h.cur hk)).trans (attack_gain o.ref hlt)⟩
  · have h := hdecay.iterate (atLeastOne_le _) (h0 _ hst) hlt
    exact ⟨h.state, (congrArg BitVec.toInt (h.cur hk)).trans (decay_gain p.sustain hlt.le)⟩
  · have h := hrelease.iterate (atLeastOne_le _) (h0 _ hst) hlt
    exact ⟨h.state, (congrArg BitVec.toInt (h.cur hk)).trans (release_gain o.ref hlt.le)⟩

/-! ## A retriggered attack -/

section
variable (p : VcaParams) (o : Adsr) {k : Nat}

theorem onRamp_adsrTrigger (hk : k < atLeastOne p.attack) :
    OnRamp .attack o.cur (attackGain p o.cur) k ((adsrAdvance p)^[k] (adsrTrigger o)) :=
  (attack_runsRamp p o.cur).iterate (atLeastOne_le _) (onRamp_zero (o := adsrTrigger o) _ rfl) hk

/-- From its first sample on, a retriggered attack is the ramp held up at the gain captured. -/
theorem iterate_adsrTrigger_toInt (h1 : 1 ≤ k) (hk : k < atLeastOne p.attack) :
    ((adsrAdvance p)^[k] (adsrTrigger o)).cur.toInt =
      max o.cur.toInt ((k * 65536 / atLeastOne p.attack : Nat) : Int) := by
  rw [(onRamp_adsrTrigger p o hk).cur h1]
  exact attack_gain o.cur hk

theorem iterate_adsrTrigger_last :
    (adsrAdvance p)^[atLeastOne p.attack] (adsrTrigger o) = ⟨.decay, wrap32 65536, 0, o.cur⟩ :=
  (attack_runsRamp p o.cur).iterate_last (atLeastOne_le _) (onRamp_zero (o := adsrTrigger o) _ rfl)
    (atLeastOne_pos _)

/-- The gain before the first sample included, the attack stays between the gain captured and the ramp
held up at it. -/
theorem iterate_adsrTrigger_mem (hk : k < atLeastOne p.attack) :
    o.cur.toInt ≤ ((adsrAdvance p)^[k] (adsrTrigger o)).cur.toInt ∧
    ((adsrAdvance p)^[k] (adsrTrigger o)).cur.toInt ≤
      max o.cur.toInt ((k * 65536 / atLeastOne p.attack : Nat) : Int) := by
  rcases Nat.eq_zero_or_pos k with rfl | h1
  · exact ⟨le_rfl, le_max_left _ _⟩
  · rw [iterate_adsrTrigger_toInt p o h1 hk]
    exact ⟨le_max_left _ _, le_rfl⟩

end

/-- Settles O36: the ramp rises, and the sample that ends it is 1.0, which neither the ramp nor the gain
captured exceeds. -/
theorem adsrRetriggerNeverClicksDown : Obligations.AdsrRetriggerNeverClicksDown := by
  intro p o k hcur hk
  obtain ⟨hlow, hhigh⟩ := iterate_adsrTrigger_mem p o hk
  refine ⟨hlow, hhigh.trans ?_⟩
  rcases Nat.lt_or_ge (k + 1) (atLeastOne p.attack) with hnext | hlast
  · rw [iterate_adsrTrigger_toInt p o (Nat.le_add_left 1 k) hnext]
    have hrise : k * 65536 / atLeastOne p.attack ≤ (k + 1) * 65536 / atLeastOne p.attack :=
      Nat.div_le_div_right (by omega)
    exact max_le_max_left _ (Int.ofNat_le.mpr hrise)
  · have hlen : k + 1 = atLeastOne p.attack := Nat.le_antisymm hk hlast
    have hramp : k * 65536 / atLeastOne p.attack ≤ 65536 :=
      Nat.div_le_of_le_mul (Nat.mul_le_mul_right _ hk.le)
    rw [hlen, iterate_adsrTrigger_last, wrap32_full_scale_toInt]
    exact max_le hcur (Int.ofNat_le.mpr hramp)

end Sys2Proof.Machine

end

/-! PROOFS. The patch registers, their notifications and the CC map (spec/43_patch.md R281 to R300). -/

section

namespace Sys2Proof.Machine

/-! ## ParamId operands -/

theorem pidId_of_pidOfId {x : Byte} {p : Pid} (h : pidOfId x = some p) : pidId p = x := by
  simpa using List.find?_some h

/-- An operand names the register whose id it is. -/
theorem pidOfWord_eq_some_iff {w : Word} {p : Pid} :
    pidOfWord w = some p ↔ w.toNat = (pidId p).toNat := by
  have hid := (pidId p).isLt
  rw [pidOfWord]
  constructor
  · intro h
    split at h
    case isTrue hw =>
      rw [pidId_of_pidOfId h, BitVec.toNat_setWidth, Nat.mod_eq_of_lt hw]
    case isFalse => cases h
  · intro h
    have hw : w.setWidth 8 = pidId p := by
      apply BitVec.eq_of_toNat_eq
      rw [BitVec.toNat_setWidth, h, Nat.mod_eq_of_lt hid]
    rw [if_pos (h ▸ hid), hw, pidOfId_pidId]

/-! ## PKIND and PRD -/

section
variable {s : State} {w : Word} {p : Pid}

theorem exec_pkind_of_some (h : pidOfWord w = some p) :
    exec (.pkind w) s = .next (answered s (BitVec.ofNat 32 (kindCode (pidKind p)))) := by
  rw [exec, execPkind, kindOfWord, h, ok_eq_answered]

theorem exec_pkind_of_none (h : pidOfWord w = none) : exec (.pkind w) s = .next (answered s 0) := by
  rw [exec, execPkind, kindOfWord, h]
  rfl

variable {u : Byte} (hu : u.toNat < 5)
include hu

/-- BADID is checked before KIND (R291). -/
theorem exec_prd_of_none (h : pidOfWord w = none) :
    exec (.prd u w) s = .next (afterError s 0x50 .badId) := by
  rw [exec, execPrd, selOfU, if_pos hu, withUnit_some, h, withOperand_none]
  exact fail_eq s .prd (st := .badId) nofun

theorem exec_prd_of_some (h : pidOfWord w = some p) :
    exec (.prd u w) s =
      if u.toNat = 0 ∨ u.toNat = kindCode (pidKind p) then .next (answered s (paramRead s.params p))
      else .next (afterError s 0x50 .kind) := by
  rw [exec, execPrd, selOfU, if_pos hu, withUnit_some, h, withOperand_some,
    fail_eq s .prd (st := .kind) nofun, ok_eq_answered]
  simp only [ne_eq, ← not_or, ite_not]
  rfl

end

/-- Settles O38: past the check of U, the id and then the kind are checked. -/
theorem prdChecksIdThenKind : Obligations.PrdChecksIdThenKind := by
  intro s u w hu
  have hlt : u.toNat < 5 := Nat.lt_succ_of_le hu
  have hzero : u = 0 ↔ u.toNat = 0 := BitVec.toNat_inj.symm
  refine ⟨exec_prd_of_none hlt, fun p hp => ?_⟩
  rw [exec_prd_of_some hlt hp]
  simp only [hzero]

/-! ## The parameter space (R282) -/

/-- The row of a register: its id, its kind code and its value in the default patch. -/
def pidRow (p : Pid) : Nat × Nat × Nat :=
  ((pidId p).toNat, kindCode (pidKind p), (paramRead Params.default p).toNat)

/-- Settles O37: the table is the rows of the registers, in the order of R282. -/
theorem parameterSpaceIsTheTable : Obligations.ParameterSpaceIsTheTable := by
  unfold Obligations.ParameterSpaceIsTheTable
  intro table
  have htable : table = pidAll.map pidRow := by decide
  have hany : (0 : Byte).toNat < 5 := by decide
  rw [htable]
  constructor
  · intro row hrow w hw
    obtain ⟨p, -, rfl⟩ := List.mem_map.mp hrow
    have hp : pidOfWord w = some p := pidOfWord_eq_some_iff.mpr hw
    refine ⟨fun s => exec_pkind_of_some hp, ?_⟩
    rw [exec_prd_of_some hany hp, if_pos (.inl rfl), pidRow, BitVec.ofNat_toNat, BitVec.setWidth_eq]
    rfl
  · intro w hw s
    have hnone : pidOfWord w = none := by
      by_contra hsome
      obtain ⟨p, hp⟩ := Option.ne_none_iff_exists'.mp hsome
      exact hw (pidRow p) (List.mem_map_of_mem (mem_pidAll p)) (pidOfWord_eq_some_iff.mp hp)
    exact ⟨exec_pkind_of_none hnone, exec_prd_of_none hany hnone⟩

/-! ## PWR (R286, R290, R292) -/

/-- What a register of a kind keeps of a word written to it, read back (R286, R287). -/
def maskOf : Kind → Word → Word
  | .byte, x => (x.setWidth 8).setWidth 32
  | .bool, x => bitWord (x.getLsbD 0)
  | .u16, x => (x.setWidth 16).setWidth 32
  | .fp32, x => x

theorem bitWord_toNat (b : Bool) : (bitWord b).toNat = b.toNat := by cases b <;> rfl

theorem maskOf_toNat (k : Kind) (x : Word) :
    (maskOf k x).toNat =
      (match k with
        | .byte => x.toNat % 2 ^ 8
        | .bool => x.toNat % 2
        | .u16 => x.toNat % 2 ^ 16
        | .fp32 => x.toNat) := by
  cases k with
  | byte => rw [maskOf, BitVec.toNat_setWidth_of_le (by decide), BitVec.toNat_setWidth]
  | bool => rw [maskOf, bitWord_toNat, BitVec.getLsbD, Nat.toNat_testBit, pow_zero, Nat.div_one]
  | u16 => rw [maskOf, BitVec.toNat_setWidth_of_le (by decide), BitVec.toNat_setWidth]
  | fp32 => rfl

section
variable (ps : Params) (x : Word)

theorem paramRead_paramWrite_same (p : Pid) :
    paramRead (paramWrite ps p x) p = maskOf (pidKind p) x := by
  cases p with
  | algorithm | feedback | mix => rfl
  | ratio u => exact (perOpGet_perOpSet ..).trans (if_pos rfl)
  | ade e f => cases e <;> cases f <;> rfl
  | vca f => cases f <;> rfl

theorem adeRead_adeWrite_of_ne (a : AdeParams) {f g : AdeField} (h : g ≠ f) :
    adeRead (adeWrite a f x) g = adeRead a g := by
  cases f <;> cases g
  case attack.attack | decay.decay | endLevel.endLevel | index.index | gated.gated
      | retrigger.retrigger => exact absurd rfl h
  all_goals rfl

theorem vcaRead_vcaWrite_of_ne (a : VcaParams) {f g : VcaField} (h : g ≠ f) :
    vcaRead (vcaWrite a f x) g = vcaRead a g := by
  cases f <;> cases g
  case attack.attack | decay.decay | sustain.sustain | release.release | retrigger.retrigger =>
    exact absurd rfl h
  all_goals rfl

theorem paramRead_paramWrite_of_ne {p q : Pid} (h : q ≠ p) :
    paramRead (paramWrite ps p x) q = paramRead ps q := by
  cases p with
  | algorithm =>
    cases q with
    | algorithm => exact absurd rfl h
    | _ => rfl
  | feedback =>
    cases q with
    | feedback => exact absurd rfl h
    | _ => rfl
  | mix =>
    cases q with
    | mix => exact absurd rfl h
    | _ => rfl
  | ratio u =>
    cases q with
    | ratio w => exact (perOpGet_perOpSet ..).trans (if_neg fun huw => h (congrArg Pid.ratio huw.symm))
    | _ => rfl
  | ade e f =>
    cases q with
    | ade e' g =>
      cases e <;> cases e'
      case envA.envB | envB.envA => rfl
      all_goals exact adeRead_adeWrite_of_ne x _ fun hgf => h (congrArg (Pid.ade _) hgf)
    | _ => cases e <;> rfl
  | vca f =>
    cases q with
    | vca g => exact vcaRead_vcaWrite_of_ne x _ fun hgf => h (congrArg Pid.vca hgf)
    | _ => rfl

end

section
variable {s : State} {p : Pid}

theorem logNotifyDrop_eq (l : Log) :
    logNotifyDrop l =
      { l with notifyOvf := true, cntNotifyDrop := BitVec.ofNat 32 (satSucc l.cntNotifyDrop) } := by
  rw [logNotifyDrop, satInc32_eq]

theorem exec_pwr_of_none {w x : Word} (h : pidOfWord w = none) :
    exec (.pwr w x) s = .next (afterError s 0x51 .badId) := by
  rw [exec, execPwr, h, withOperand_none]
  exact fail_eq s .pwr (st := .badId) nofun

theorem exec_pwr_of_some {w x : Word} (h : pidOfWord w = some p) :
    exec (.pwr w x) s = .next (answered (setParam s p x) 0) := by
  rw [exec, execPwr, h, withOperand_some, ok_eq_answered]

variable (p) (x : Word)

/-- Besides the register, a write reaches the notification queue and the log alone. -/
theorem setParam_eq (s : State) :
    setParam s p x = { s with
      params := paramWrite s.params p x
      nq := (setParam s p x).nq
      log := (setParam s p x).log } := by
  unfold setParam notify
  split <;> rfl

theorem setParam_of_room (h : s.nq.length < s.cfg.notifyDepth) :
    (setParam s p x).nq = s.nq ++ [p] ∧ (setParam s p x).log = s.log := by
  rw [setParam, notify, if_pos h]
  exact ⟨rfl, rfl⟩

theorem setParam_of_full (h : s.cfg.notifyDepth ≤ s.nq.length) :
    (setParam s p x).nq = s.nq ∧ (setParam s p x).log = logNotifyDrop s.log := by
  rw [setParam, notify, if_neg h.not_gt]
  exact ⟨rfl, rfl⟩

end

/-- Settles O39: PWR is `setParam`, a parameter write and then a notification. -/
theorem pwrStoresMaskedAndNotifies : Obligations.PwrStoresMaskedAndNotifies := by
  intro s id x
  refine ⟨exec_pwr_of_none, fun p hp => ?_⟩
  refine ⟨paramWrite s.params p x, (setParam s p x).nq, (setParam s p x).log, ?_, ?_,
    fun q hq => paramRead_paramWrite_of_ne s.params x hq, setParam_of_room p x, fun hfull => ?_⟩
  · rw [exec_pwr_of_some hp]
    exact congrArg (fun t => Host.Outcome.next (answered t 0)) (setParam_eq p x s)
  · rw [paramRead_paramWrite_same]
    exact maskOf_toNat _ x
  · rw [← logNotifyDrop_eq]
    exact setParam_of_full p x hfull

/-! ## CCWR and CCRD (R293, R294) -/

/-- The register named by the low byte of a binding. -/
theorem pidOfWord_and_255 (x : Word) : pidOfWord (x &&& 0xFF) = pidOfId (x.setWidth 8) := by
  have hval : (x &&& 0xFF).toNat = x.toNat % 256 := by
    rw [BitVec.toNat_and]
    exact Nat.and_two_pow_sub_one_eq_mod x.toNat 8
  have hid : (x &&& 0xFF).setWidth 8 = x.setWidth 8 := by
    apply BitVec.eq_of_toNat_eq
    rw [BitVec.toNat_setWidth, hval, BitVec.toNat_setWidth, Nat.mod_mod]
  rw [pidOfWord, hval, if_pos (Nat.mod_lt _ (by decide)), hid]

section
variable {s : State} {cc x : Word}

theorem exec_ccwr_of_ge (h : 128 ≤ cc.toNat) :
    exec (.ccwr cc x) s = .next (afterError s 0x53 .range) := by
  rw [exec, execCcwr, data7OfWord_of_ge h, withOperand_none]
  exact fail_eq s .ccwr (st := .range) nofun

theorem exec_ccrd_of_ge (h : 128 ≤ cc.toNat) :
    exec (.ccrd cc) s = .next (afterError s 0x54 .range) := by
  rw [exec, execCcrd, data7OfWord_of_ge h, withOperand_none]
  exact fail_eq s .ccrd (st := .range) nofun

variable (h : cc.toNat < 128)
include h

theorem exec_ccwr_of_bad_id (hbit : x.getLsbD 8 = true) (hid : pidOfWord (x &&& 0xFF) = none) :
    exec (.ccwr cc x) s = .next (afterError s 0x53 .badId) := by
  rw [pidOfWord_and_255] at hid
  rw [exec, execCcwr, data7OfWord_of_lt h, withOperand_some, if_pos hbit, hid, withOperand_none]
  exact fail_eq s .ccwr (st := .badId) nofun

theorem exec_ccwr_bind {p : Pid} (hbit : x.getLsbD 8 = true) (hid : pidOfWord (x &&& 0xFF) = some p) :
    exec (.ccwr cc x) s = .next (answered (bindCc s ⟨cc.toNat, h⟩ p) 0) := by
  rw [pidOfWord_and_255] at hid
  rw [exec, execCcwr, data7OfWord_of_lt h, withOperand_some, if_pos hbit, hid, withOperand_some,
    ok_eq_answered]

theorem exec_ccwr_unbind (hbit : x.getLsbD 8 = false) :
    exec (.ccwr cc x) s = .next (answered (unbindCc s ⟨cc.toNat, h⟩) 0) := by
  rw [exec, execCcwr, data7OfWord_of_lt h, withOperand_some, if_neg (Bool.not_eq_true _ ▸ hbit),
    ok_eq_answered]

theorem exec_ccrd_of_getElem? {e : Option Pid} (he : s.ccMap[cc.toNat]? = some e) :
    exec (.ccrd cc) s = .next (answered s (entryWord (ccEntry e))) := by
  have hbinding : ccBinding s ⟨cc.toNat, h⟩ = e := by
    rw [ccBinding, List.getD_eq_getElem?_getD, he, Option.getD_some]
  rw [exec, execCcrd, data7OfWord_of_lt h, withOperand_some, hbinding, ok_eq_answered]

end

/-- The CC map after a binding, entry by entry. -/
theorem bindCc_getElem? {s : State} (hlen : s.ccMap.length = 128) (cc : Data7) (p : Pid) {c : Nat}
    (hc : c < 128) :
    (bindCc s cc p).ccMap[c]? = some (if c = cc.val then some p
      else if s.ccMap[c]? = some (some p) then none else (s.ccMap[c]?).getD none) := by
  have hc' : c < s.ccMap.length := hlen ▸ hc
  rw [bindCc_ccMap, List.getElem?_set, List.length_map, List.getElem?_map,
    List.getElem?_eq_getElem hc']
  split
  case isTrue heq => rw [if_pos (cc.isLt.trans_eq hlen.symm), if_pos heq.symm]
  case isFalse hne => simp only [if_neg (Ne.symm hne), Option.map_some, Option.some_inj, Option.getD_some]

/-- Settles O40: the map after a binding is the one for the register named, if there is one. -/
theorem ccwrBindsOneCcPerRegister : Obligations.CcwrBindsOneCcPerRegister := by
  intro s cc x
  refine ⟨fun hge => ⟨exec_ccwr_of_ge hge, exec_ccrd_of_ge hge⟩, exec_ccwr_of_bad_id, fun hlt hlen => ?_⟩
  have hread : ∀ e, s.ccMap[cc.toNat]? = some e → exec (.ccrd cc) s = .next (answered s
      (match e with
        | some p => BitVec.ofNat 32 (256 + (pidId p).toNat)
        | none => 0)) := by
    intro e he
    rw [exec_ccrd_of_getElem? hlt he]
    cases e with
    | some p => rw [ccEntry, Option.map_some, entryWord_some]
    | none => rfl
  cases hid : pidOfWord (x &&& 0xFF) with
  | none => exact ⟨[], nofun, exec_ccwr_unbind hlt, hread⟩
  | some p =>
    refine ⟨(bindCc s ⟨cc.toNat, hlt⟩ p).ccMap, fun q hbit hq => ?_, exec_ccwr_unbind hlt, hread⟩
    cases hq
    exact ⟨exec_ccwr_bind hlt hbit hid, fun c hc => bindCc_getElem? hlen ⟨cc.toNat, hlt⟩ p hc⟩

/-! ## NPOP (R297) -/

theorem exec_npop_nil {s : State} (h : s.nq = []) : exec .npop s = .next (answered s 0) := by
  rw [exec, execNpop, h, ok_eq_answered]

theorem exec_npop_cons {s : State} {p : Pid} {rest : List Pid} (h : s.nq = p :: rest) :
    exec .npop s = .next (answered { s with nq := rest } (entryWord (some (pidId p)))) := by
  rw [exec, execNpop, h]
  rfl

/-- Settles O42: the two forms of the queue. -/
theorem npopTakesTheOldestNotification : Obligations.NpopTakesTheOldestNotification := by
  intro s p rest
  refine ⟨exec_npop_nil, fun hcons => ?_⟩
  rw [exec_npop_cons hcons, entryWord_some]
  rfl

/-! ## PAPPLY and PAPRD (R299, R300) -/

theorem opByte_opOfCode_toNat (c : BitVec 2) : (opByte (opOfCode c)).toNat = c.toNat := by
  revert c
  decide

/-- The algorithm byte stands above the eight bits of the owner. -/
theorem shiftLeft_or_toNat (alg : Byte) {low : Word} (h : low.toNat < 256) :
    (alg.setWidth 32 <<< 8 ||| low).toNat = alg.toNat * 256 + low.toNat := by
  have halg := alg.isLt
  have hhigh : (alg.setWidth 32 <<< 8).toNat = alg.toNat <<< 8 := by
    rw [BitVec.toNat_shiftLeft, BitVec.toNat_setWidth_of_le (by decide), Nat.shiftLeft_eq]
    omega
  rw [BitVec.toNat_or, hhigh, ← Nat.shiftLeft_add_eq_or_of_lt h, Nat.shiftLeft_eq]

/-- The owner's bits of PAPRD: the enable bit above the unit code. -/
theorem ownerBits_toNat (f : FbOwner) :
    (bitWord f.en <<< 2 ||| (opCode f.op).setWidth 32).toNat =
      (if f.en then 4 else 0) + (opByte f.op).toNat := by
  obtain ⟨en, op⟩ := f
  cases en <;> cases op <;> rfl

/-- Settles O43: the latch is read off the operand bit by bit, and PAPRD packs it without overlap. -/
theorem papplyLatchesWhatPaprdReads : Obligations.PapplyLatchesWhatPaprdReads := by
  intro s w
  refine ⟨⟨w.getLsbD 2, opOfCode (w.setWidth 2)⟩, rfl, ?_, ?_, _, rfl, ?_⟩
  · rw [BitVec.getLsbD, Nat.testBit_eq_decide_div_mod_eq, decide_eq_decide]
    omega
  · rw [opByte_opOfCode_toNat, BitVec.toNat_setWidth]
  · have hbits := ownerBits_toNat s.fbOwner
    have hlow : (bitWord s.fbOwner.en <<< 2 ||| (opCode s.fbOwner.op).setWidth 32).toNat < 256 := by
      cases s.fbOwner.en <;> cases s.fbOwner.op <;> decide
    rw [BitVec.or_assoc, shiftLeft_or_toNat _ hlow, hbits, Nat.add_assoc]

end Sys2Proof.Machine

end

/-! PROOFS. The voice output and the mixer registers (spec/45_mixer_output.md R380 to R388). -/

section

namespace Sys2Proof.Machine

/-! ## VOUT (R380) and the mixer registers -/

section
variable {s : State} {x : Voice} {v : Byte}
  (hv : v.toNat < s.cfg.nv) (hx : s.voices[v.toNat]? = some x)
include hv hx

theorem exec_vout_of_rendered (sig : Word) (h : x.rendered = true) :
    exec (.vout v sig) s = .next (afterError s 0x30 .hazard) := by
  rw [exec, execVout, withVoice_lt hv, voice_of_getElem? hx, if_pos h]
  exact fail_eq s .vout (st := .hazard) nofun

/-- The VCA advances first, and scales by the new gain; the sample is latched in the same voice. -/
theorem exec_vout_of_not_rendered (sig : Word) (h : x.rendered = false) {a : Adsr}
    (ha : adsrAdvance s.params.vca x.vca = a) :
    exec (.vout v sig) s =
      .next (answered (setVoice s v.toNat (voiceLatch { x with vca := a } (fmul sig a.cur)))
        (fmul sig a.cur)) := by
  obtain ⟨hlen, -⟩ := List.getElem?_eq_some_iff.mp hx
  have hscale : envScale s v.toNat .vca sig =
      (setVoice s v.toNat { x with vca := a }, fmul sig a.cur) := by
    rw [envScale, voice_of_getElem? hx, envAdvance, ha]
    rfl
  have hvoice : voice (setVoice s v.toNat { x with vca := a }) v.toNat = { x with vca := a } := by
    rw [voice_setVoice _ _ _ _ hlen, if_pos rfl]
  have hlatch : ∀ f, modifyVoice (setVoice s v.toNat { x with vca := a }) v.toNat f =
      setVoice s v.toNat (f { x with vca := a }) := fun f => by
    rw [modifyVoice, hvoice, setVoice, setVoice, setVoice, List.set_set]
  rw [exec, execVout, withVoice_lt hv, voice_of_getElem? hx, if_neg (by simp [h])]
  simp only [hscale, hlatch, ok_eq_answered]

theorem exec_mlvlwr_eq_answered (w : Word) :
    exec (.mlvlwr v w) s = .next (answered (setVoice s v.toNat { x with level := w }) 0) := by
  rw [exec, execMlvlwr, withVoice_lt hv, modifyVoice, voice_of_getElem? hx, ok_eq_answered]

theorem exec_mlvlrd_eq_answered : exec (.mlvlrd v) s = .next (answered s x.level) := by
  rw [exec, execMlvlrd, withVoice_lt hv, voice_of_getElem? hx, ok_eq_answered]

theorem exec_mvoutrd_eq_answered : exec (.mvoutrd v) s = .next (answered s x.vout) := by
  rw [exec, execMvoutrd, withVoice_lt hv, voice_of_getElem? hx, ok_eq_answered]

end

/-- Settles O50: both commands advance the VCA the same way; VOUT latches what ESCALE answers. -/
theorem voutLatchesOncePerSample : Obligations.VoutLatchesOncePerSample := fun s x _ sig hv hx =>
  ⟨exec_vout_of_rendered hv hx sig, fun h =>
    ⟨adsrAdvance s.params.vca x.vca, fmul sig (adsrAdvance s.params.vca x.vca).cur,
      exec_escale_vca_eq_answered hv hx sig rfl, exec_vout_of_not_rendered hv hx sig h rfl⟩⟩

/-- Settles O53: each command by its own lemma. -/
theorem mixerRegistersReadAndWrite : Obligations.MixerRegistersReadAndWrite := fun _ _ _ w hv hx =>
  ⟨exec_mlvlwr_eq_answered hv hx w, exec_mlvlrd_eq_answered hv hx, exec_mvoutrd_eq_answered hv hx, rfl⟩

/-! ## Headroom -/

/-- A sum of words within `b`, as many as stay within the 32-bit range together, does not wrap. -/
theorem sum_map_toInt {α : Type} (f : α → Word) (b : Nat) (l : List α)
    (hf : ∀ x ∈ l, (f x).toInt.natAbs ≤ b) (hb : l.length * b < 2147483648) :
    (l.map f).sum.toInt = (l.map fun x => (f x).toInt).sum ∧
      (l.map f).sum.toInt.natAbs ≤ l.length * b := by
  induction l with
  | nil => exact ⟨rfl, Nat.zero_le _⟩
  | cons x l ih =>
    rw [List.length_cons, Nat.succ_mul] at *
    have hx := hf x (.head _)
    obtain ⟨hsum, habs⟩ := ih (fun y hy => hf y (.tail _ hy)) (by omega)
    have hadd : (f x + (l.map f).sum).toInt = (f x).toInt + (l.map f).sum.toInt := by
      rw [BitVec.toInt_add]
      exact Int.bmod_eq_of_le (by omega) (by omega)
    rw [List.map_cons, List.map_cons, List.sum_cons, List.sum_cons, hadd, ← hsum]
    exact ⟨rfl, by omega⟩

/-- The attenuation is at most 1.0, so its word is not negative (R381). -/
theorem atten_toInt (c : Config) : (atten c).toInt = ((65536 / c.nv : Nat) : Int) := by
  have hle : 65536 / c.nv ≤ 65536 := Nat.div_le_self _ _
  rw [atten, BitVec.toInt_ofNat']
  generalize 65536 / c.nv = a at hle ⊢
  exact Int.bmod_eq_of_le (by omega) (by omega)

/-- A channel within full scale contributes the exact product, at most the attenuation. -/
theorem attenuated_within {c : Config} {x : Voice} (hout : x.vout.toInt.natAbs ≤ 65536)
    (hlevel : x.level.toInt.natAbs ≤ 65536) :
    (attenuated c x).toInt =
      (x.vout.toInt * x.level.toInt / 65536) * ((65536 / c.nv : Nat) : Int) / 65536 ∧
    (attenuated c x).toInt.natAbs ≤ 65536 / c.nv := by
  have hle : 65536 / c.nv ≤ 65536 := Nat.div_le_self _ _
  obtain ⟨hprod, habs⟩ := fmul_within hout hlevel
  have hatten := atten_toInt c
  obtain ⟨hterm, -⟩ := fmul_within (b := atten c) habs (by rw [hatten]; exact hle)
  rw [← attenuated, hprod, hatten] at hterm
  refine ⟨hterm, ?_⟩
  rw [hterm, ← hprod]
  have hscaled : ((fmul x.vout x.level).toInt * ((65536 / c.nv : Nat) : Int)).natAbs ≤
      65536 * (65536 / c.nv) := by
    rw [Int.natAbs_mul, Int.natAbs_natCast]
    exact Nat.mul_le_mul_right _ habs
  omega

/-- Settles O52: the attenuations of the channels add up to at most 1.0. -/
theorem mixHasHeadroom : Obligations.MixHasHeadroom := by
  intro s hlen _ hroom hscale
  refine ⟨_, mixSum s, exec_mixpush_of_room hroom, rfl, ?_⟩
  have hterm := fun x hx => attenuated_within (c := s.cfg) (hscale x hx).1 (hscale x hx).2
  have hbound : s.voices.length * (65536 / s.cfg.nv) ≤ 65536 := hlen ▸ Nat.mul_div_le _ _
  obtain ⟨hsum, habs⟩ := sum_map_toInt (attenuated s.cfg) (65536 / s.cfg.nv) s.voices
    (fun x hx => (hterm x hx).2) (by omega)
  rw [mixSum_eq_sum hlen]
  refine ⟨habs.trans hbound, hsum.trans (congrArg List.sum (List.map_congr_left fun x hx => ?_))⟩
  exact (hterm x hx).1

end Sys2Proof.Machine

end

/-! PROOFS. The system commands (spec/46_system.md R410 to R416). -/

section

namespace Sys2Proof.Machine

/-! ## STRD and STCLR (R410, R411) -/

/-- Settles O56: STATUS is the seven bits, each of them present or not. -/
theorem strdAnswersStatus : Obligations.StrdAnswersStatus := by
  intro s
  refine ⟨statusWord s, rfl, ?_⟩
  have hempty : decide (s.fifo.length = 0) = decide (s.fifo = []) := by
    rw [decide_eq_decide, List.length_eq_zero_iff]
  have hpending : decide (0 < s.nq.length) = !decide (s.nq = []) := by
    rw [← decide_not, decide_eq_decide, List.length_pos_iff]
  have hbits : ∀ b0 b1 b2 b3 b4 b5 b6 : Bool,
      (bitWord b0 ||| bitWord b1 <<< 1 ||| bitWord b2 <<< 2 ||| bitWord b3 <<< 3 ||| bitWord b4 <<< 4 |||
        bitWord b5 <<< 5 ||| bitWord (!b6) <<< 6).toNat =
      (if b0 then 1 else 0) + (if b1 then 2 else 0) + (if b2 then 4 else 0) + (if b3 then 8 else 0) +
        (if b4 then 16 else 0) + (if b5 then 32 else 0) + (if b6 then 0 else 64) := by decide
  rw [statusWord, hempty, hpending, hbits]
  simp only [decide_eq_true_eq]

/-- A sticky bit under a mask bit: cleared where the mask is set. -/
theorem clearSticky_eq_ite (b : Bool) (m : Word) (i : Nat) :
    (b && !m.getLsbD i) = if m.toNat / 2 ^ i % 2 = 1 then false else b := by
  rw [BitVec.getLsbD, Nat.testBit_eq_decide_div_mod_eq]
  split_ifs with h <;> simp [h]

/-- Settles O57: each sticky bit is masked alone. -/
theorem stclrClearsTheMaskedStickyBits : Obligations.StclrClearsTheMaskedStickyBits := by
  intro s m
  have hzero : m.toNat / 2 ^ 0 = m.toNat := Nat.div_one _
  rw [exec, execStclr, logClearSticky]
  simp only [clearSticky_eq_ite, hzero]
  rfl

/-! ## CNTRD and CNTCLR (R413, R414) -/

section
variable (s : State) {u : Byte} (hu : u.toNat < 6)
include hu

theorem exec_cntrd_eq_answered : exec (.cntrd u) s = .next (answered s (logRead s.log u.toNat)) := by
  rw [exec, execCntrd, selOfU, if_pos hu, withUnit_some, ok_eq_answered]

theorem exec_cntclr_eq_answered :
    exec (.cntclr u) s = .next (answered { s with log := logZero s.log u.toNat } 0) := by
  rw [exec, execCntclr, selOfU, if_pos hu, withUnit_some, ok_eq_answered]

end

/-- Zeroing one register of class CNT leaves what the other five answer. -/
theorem logRead_logZero (l : Log) {i j : Nat} (hi : i < 6) (hj : j < 6) :
    logRead (logZero l i) j = if j = i then 0 else logRead l j := by
  interval_cases i <;> interval_cases j <;> rfl

theorem logZero_sticky (l : Log) (i : Nat) :
    (logZero l i).underrun = l.underrun ∧ (logZero l i).cmdErr = l.cmdErr ∧
      (logZero l i).notifyOvf = l.notifyOvf ∧ (logZero l i).midiDiag = l.midiDiag := by
  unfold logZero
  split <;> exact ⟨rfl, rfl, rfl, rfl⟩

/-- Settles O58: the six selects by evaluation, and CNTCLR by what it leaves readable. -/
theorem cntrdAndCntclrSelectOneRegister : Obligations.CntrdAndCntclrSelectOneRegister := by
  intro s
  refine ⟨rfl, rfl, rfl, rfl, rfl, rfl, fun u hu => ?_⟩
  obtain ⟨hunderrun, hcmdErr, hnotifyOvf, hmidiDiag⟩ := logZero_sticky s.log u.toNat
  refine ⟨logZero s.log u.toNat, exec_cntclr_eq_answered s hu, hunderrun, hcmdErr, hnotifyOvf, hmidiDiag,
    fun u' hu' => ⟨logRead s.log u'.toNat, exec_cntrd_eq_answered s hu', ?_⟩⟩
  rw [exec_cntrd_eq_answered _ hu', logRead_logZero s.log hu hu']
  simp only [BitVec.toNat_inj]

/-! ## CFGRD (R416) -/

theorem exec_cfgrd_eq_answered (s : State) {u : Byte} (hu : u.toNat < 6) :
    exec (.cfgrd u) s = .next (answered s (cfgRead s.cfg u.toNat)) := by
  rw [exec, execCfgrd, selOfU, if_pos hu, withUnit_some, ok_eq_answered]

/-- The parameters of class CFG, in the order of the selects. -/
def cfgTable (c : Config) : List Nat := [c.sr, c.nv, c.fifoDepth, c.notifyDepth, c.adeShift, 65536 / c.nv]

theorem cfgRead_of_cfgTable {c : Config} {k x : Nat} (h : (cfgTable c)[k]? = some x) :
    cfgRead c k = BitVec.ofNat 32 x := by
  obtain ⟨hk, rfl⟩ := List.getElem?_eq_some_iff.mp h
  have hk' : k < 6 := hk
  interval_cases k <;> rfl

/-- The parameters of a legal configuration fit a word (R7). -/
theorem cfgTable_lt {c : Config} (h : c.Legal) {x : Nat} (hx : x ∈ cfgTable c) : x < 2 ^ 32 := by
  obtain ⟨hsr, hnv, hfifo, hnotify, hshift, -, -, -, -⟩ := h
  have hatten : 65536 / c.nv ≤ 65536 := Nat.div_le_self _ _
  simp only [cfgTable, List.mem_cons, List.not_mem_nil, or_false] at hx
  rcases hx with rfl | rfl | rfl | rfl | rfl | rfl <;> omega

/-- Settles O59: the parameters are the table's, and each fits its word. -/
theorem nopIdrdAndCfgrdAnswerConstants : Obligations.NopIdrdAndCfgrdAnswerConstants := by
  intro s hlegal
  refine ⟨rfl, rfl, fun u x hx => ?_⟩
  have hu : u.toNat < 6 := (List.getElem?_eq_some_iff.mp hx).1
  refine ⟨_, exec_cfgrd_eq_answered s hu, ?_⟩
  rw [cfgRead_of_cfgTable hx, BitVec.toNat_ofNat]
  exact Nat.mod_eq_of_lt (cfgTable_lt hlegal (List.mem_of_getElem? hx))

end Sys2Proof.Machine

end
